-- ==== Sys2Proof/Word.lean ====
section
/-! DEFINITION. The word types of the block (spec 00_scope.md R10, R13): every register and operand
that the spec treats as bits is one of these. -/

namespace Sys2Proof

/-- One byte of a stimulus word or read value written as bytes (20_memory.md R64). -/
abbrev Byte := BitVec 8

/-- `u16` and `i16` of R13: counts, frequencies, and (read as two's complement) samples and the threshold. -/
abbrev U16 := BitVec 16

/-- `u32` of R13: a stimulus word, a read value, `period`, `duty`, `tick_cnt`, `phase_start`, `now_ms`. -/
abbrev U32 := BitVec 32

end Sys2Proof
end

