-- ==== Sys2Proof/Config.lean ====
section
/-! DEFINITION. What an implementation fixes: the parameters of 00_scope.md R8 and the constants of R9. -/

namespace Sys2Proof

/-- Tie rule of `round(1_000_000 / freq)` (R8 `ROUND_TIES`, 40_pulse_clock.md R101). -/
inductive RoundTies where
  | halfUp
  | halfEven
  deriving DecidableEq, Repr

/-- `ORIGIN_FREQ` (R8): a frequency of 1 to 1000 Hz. The range travels with the value, so that a
bounded move can never fall into `Stop()` (41_stepper_driver.md R123). -/
structure OriginFreq where
  hz  : U16
  pos : 1 ≤ hz.toNat
  le  : hz.toNat ≤ 1000
  deriving DecidableEq, Repr

/-- The implementation parameters of R8. They are no registers (10_state.md R20): the model carries
them in its state, and no step writes them. -/
structure Params where
  originFreq : OriginFreq
  cbEdgeOnly : Bool
  roundTies  : RoundTies
  deriving DecidableEq, Repr

namespace Config

/-- The OPEN value of `ORIGIN_FREQ` (R8, 92_eei_decisions.md D17), as its distance above 1 Hz. It has no
body: nothing in Lean can say which of the thousand frequencies it is. -/
opaque originOffset : Fin 1000

/-- `ORIGIN_FREQ` of the machine at reset: some frequency of 1..1000. -/
def originFreq : OriginFreq where
  hz  := BitVec.ofNat 16 (originOffset.val + 1)
  pos := by
    have h := originOffset.isLt
    rw [BitVec.toNat_ofNat, Nat.mod_eq_of_lt (by omega)]
    omega
  le  := by
    have h := originOffset.isLt
    rw [BitVec.toNat_ofNat, Nat.mod_eq_of_lt (by omega)]
    omega

/-- The parameters of the machine at reset: `ORIGIN_FREQ` open, the other two at R8's defaults. -/
def params : Params where
  originFreq := originFreq
  cbEdgeOnly := false
  roundTies  := .halfUp

/-- "a fixed 1 MHz reference tick rate" (R9). -/
def referenceRate : Nat := 1000000

/-- Upper bound of the frequency clamp and of the domain of `freq` (R9). -/
def maxFreq : U16 := 1000

/-- "its maximum representable value (sentinel for 'no limit')" (R9, 41_stepper_driver.md R124). -/
def noLimit : U16 := 65535

/-- Start delay of phase StartMoving, in ms (R9). -/
def startDelay : U32 := 100

/-- Settle delay of phase FinalMove, in ms (R9). -/
def settleDelay : U32 := 50

/-- Length of the final move in pulses (R9). -/
def finalSteps : U16 := 2000

end Config

end Sys2Proof
end

