-- ==== Sys2Proof/Syntax.lean ====
section
/-! DEFINITION. The operations of the block: one constructor of `Instr` per row of 30_encoding.md R85,
with the operand types of R83; the agents that issue them (00_scope.md R11); the pseudo-operations (R92). -/

namespace Sys2Proof

/-- A 2-bit direction: the operand `dir` (R83) and the registers `direction`, `current_direction`
(10_state.md R22). All four bit patterns are legal operands; `invalid` is pattern 3. -/
inductive Direction where
  | stopped
  | clockwise
  | counterClockwise
  | invalid
  deriving DecidableEq, Repr

/-- The operand `name` of WRSW (R83). Pattern 3 is reserved and has no constructor. -/
inductive SwitchName where
  | current
  | holdoff
  | division
  deriving DecidableEq, Repr

/-- The 25 operations of R85. -/
inductive Instr where
  | drvinit
  | setf    (hz : U16)
  | move    (dir : Direction) (steps : U16)
  | cmove   (dir : Direction)
  | stop
  | drvproc
  | setcb   (en : Bool)
  | rstcnt
  | wrfreq  (hz : U16)
  | wrthr   (thr : U16)
  | wrsw    (name : SwitchName) (val : Bool)
  | swsync
  | rdreg   (addr : Byte)
  | seqinit
  | start
  | seqproc
  | reset
  | tmrupd
  | tmrcmp
  | tick
  | refclk
  | push    (sample : U16)
  | rinc
  | rdec
  | mstick
  deriving DecidableEq, Repr

/-- The agents of 00_scope.md R11 and the reset input. -/
inductive Agent where
  | cmd
  | tmr
  | rot
  | smp
  | clk
  | resetInput
  deriving DecidableEq, Repr

/-- Which agent issues an operation (R11, the agent column of R85). -/
def Instr.agent : Instr → Agent
  | .drvinit => .cmd
  | .setf _ => .cmd
  | .move _ _ => .cmd
  | .cmove _ => .cmd
  | .stop => .cmd
  | .drvproc => .cmd
  | .setcb _ => .cmd
  | .rstcnt => .cmd
  | .wrfreq _ => .cmd
  | .wrthr _ => .cmd
  | .wrsw _ _ => .cmd
  | .swsync => .cmd
  | .rdreg _ => .cmd
  | .seqinit => .cmd
  | .start => .cmd
  | .seqproc => .cmd
  | .reset => .resetInput
  | .tmrupd => .tmr
  | .tmrcmp => .tmr
  | .tick => .tmr
  | .refclk => .tmr
  | .push _ => .smp
  | .rinc => .rot
  | .rdec => .rot
  | .mstick => .clk

end Sys2Proof
end

