-- ==== Sys2Proof/WellFormed.lean ====
section
/-! DEFINITION. Well-formed operations: what the types of the operands do not already say. The one check
is the extra condition of the RDREG row of 30_encoding.md R85, a mapped address of 10_state.md R39;
WRSW's extra condition is in the type `SwitchName`, and every other operand value is legal (R83). -/

namespace Sys2Proof

/-- The 27 mapped addresses of the register read space (10_state.md R39). -/
def mappedAddr (addr : Byte) : Bool :=
  let n := addr.toNat
  n ≤ 0x06 || (0x08 ≤ n && n ≤ 0x13) || (0x18 ≤ n && n ≤ 0x1F)

/-- The operand conditions of R85. -/
def Instr.wellFormed : Instr → Bool
  | .drvinit => true
  | .setf _ => true
  | .move _ _ => true
  | .cmove _ => true
  | .stop => true
  | .drvproc => true
  | .setcb _ => true
  | .rstcnt => true
  | .wrfreq _ => true
  | .wrthr _ => true
  | .wrsw _ _ => true
  | .swsync => true
  | .rdreg addr => mappedAddr addr
  | .seqinit => true
  | .start => true
  | .seqproc => true
  | .reset => true
  | .tmrupd => true
  | .tmrcmp => true
  | .tick => true
  | .refclk => true
  | .push _ => true
  | .rinc => true
  | .rdec => true
  | .mstick => true

end Sys2Proof
end

