-- ==== Sys2Proof/Decode.lean ====
section
/-! DEFINITION. The stimulus word (30_encoding.md R80 to R88): fields, formats, operand decoding, the
decoder and the encoder, and the little-endian byte form of a word (20_memory.md R64). -/

namespace Sys2Proof

/-! ### Fields of the stimulus word (R81) -/

/-- `W[31:24]`. -/
def opField (w : U32) : Byte := w.extractLsb' 24 8

/-- `W[23:16]`. -/
def aField (w : U32) : Byte := w.extractLsb' 16 8

/-- `W[15:0]`. -/
def immField (w : U32) : U16 := w.extractLsb' 0 16

/-- The word with the three given fields. -/
def packWord (op a : Byte) (imm : U16) : U32 := op ++ a ++ imm

/-! ### Operand decoding (R83) -/

/-- `dir` and the direction registers: 0 Stopped, 1 Clockwise, 2 CounterClockwise, 3 invalid. -/
def Direction.bits : Direction → BitVec 2
  | .stopped          => 0
  | .clockwise        => 1
  | .counterClockwise => 2
  | .invalid          => 3

/-- The direction that two bits name. -/
def Direction.ofBits (b : BitVec 2) : Direction :=
  match b.toNat with
  | 0 => .stopped
  | 1 => .clockwise
  | 2 => .counterClockwise
  | _ => .invalid

/-- `name`: 0 current, 1 holdoff, 2 division. -/
def SwitchName.bits : SwitchName → BitVec 2
  | .current  => 0
  | .holdoff  => 1
  | .division => 2

/-- The switch that two bits name; 3 is reserved. -/
def SwitchName.ofBits (b : BitVec 2) : Option SwitchName :=
  match b.toNat with
  | 0 => some .current
  | 1 => some .holdoff
  | 2 => some .division
  | _ => none

/-! ### The decoder (R82, R85, R87) -/

/-- Why bytes or a word are no operation: the classes of reserved words of R88, and bytes too few for a
word (R80). All are refused with the state unchanged: safe. -/
inductive DecodeError where
  /-- Raised by `decode`: the `op` value has no row in R85. -/
  | undefinedOp
  /-- Raised by `decode`: a must-be-zero bit of a defined `op` is set. -/
  | unusedBits
  /-- Raised by `decode`: WRSW with `name = 3`. -/
  | reservedSwitch
  /-- Raised by `decode`: RDREG of an unmapped address. -/
  | unmappedAddress
  /-- Raised by `decodeBytes`: fewer than four bytes. -/
  | truncated
  deriving DecidableEq, Repr

/-- Format N (R82): `a` and `imm` are zero. -/
def formatN (a : Byte) (imm : U16) (i : Instr) : Except DecodeError Instr :=
  if a = 0 ∧ imm = 0 then .ok i else .error .unusedBits

/-- Format I (R82): `a` is zero. -/
def formatI (a : Byte) (i : Instr) : Except DecodeError Instr :=
  if a = 0 then .ok i else .error .unusedBits

/-- Format A with an operand in the low `k` bits of `a` (R82, R83): the other bits of `a`, and `imm`, are zero. -/
def formatA (k : Nat) (a : Byte) (imm : U16) (i : Instr) : Except DecodeError Instr :=
  if a >>> k = 0 ∧ imm = 0 then .ok i else .error .unusedBits

/-- Format AI with operands in the low `k` bits of `a` and the low `j` bits of `imm` (R82, R83). -/
def formatAI (k j : Nat) (a : Byte) (imm : U16) (i : Instr) : Except DecodeError Instr :=
  if a >>> k = 0 ∧ imm >>> j = 0 then .ok i else .error .unusedBits

/-- WRSW (R83, R88): the unused bits first, then the reserved name. -/
def decodeWrsw (a : Byte) (imm : U16) : Except DecodeError Instr :=
  match SwitchName.ofBits (a.extractLsb' 0 2) with
  | some name => formatAI 2 1 a imm (.wrsw name (imm.getLsbD 0))
  | none      => .error .reservedSwitch

/-- RDREG (R83, R88). -/
def decodeRdreg (a : Byte) (imm : U16) : Except DecodeError Instr :=
  if mappedAddr a then formatA 8 a imm (.rdreg a) else .error .unmappedAddress

/-- The row that `op` selects, applied to the other two fields (R85, R87). -/
def decodeFields (op a : Byte) (imm : U16) : Except DecodeError Instr :=
  match op.toNat with
  | 0x01 => formatN a imm .drvinit
  | 0x02 => formatI a (.setf imm)
  | 0x03 => formatAI 2 16 a imm (.move (Direction.ofBits (a.extractLsb' 0 2)) imm)
  | 0x04 => formatA 2 a imm (.cmove (Direction.ofBits (a.extractLsb' 0 2)))
  | 0x05 => formatN a imm .stop
  | 0x06 => formatN a imm .drvproc
  | 0x07 => formatA 1 a imm (.setcb (a.getLsbD 0))
  | 0x08 => formatN a imm .rstcnt
  | 0x10 => formatI a (.wrfreq imm)
  | 0x11 => formatI a (.wrthr imm)
  | 0x12 => decodeWrsw a imm
  | 0x13 => formatN a imm .swsync
  | 0x1F => decodeRdreg a imm
  | 0x20 => formatN a imm .seqinit
  | 0x21 => formatN a imm .start
  | 0x22 => formatN a imm .seqproc
  | 0x80 => formatN a imm .reset
  | 0x81 => formatN a imm .tmrupd
  | 0x82 => formatN a imm .tmrcmp
  | 0x83 => formatN a imm .tick
  | 0x84 => formatN a imm .refclk
  | 0x88 => formatI a (.push imm)
  | 0x89 => formatN a imm .rinc
  | 0x8A => formatN a imm .rdec
  | 0x8B => formatN a imm .mstick
  | _    => .error .undefinedOp

/-- The operation a stimulus word stands for (R85, R87), or why it is reserved (R88). -/
def decode (w : U32) : Except DecodeError Instr := decodeFields (opField w) (aField w) (immField w)

/-! ### The encoder (R85) -/

/-- The stimulus word of an operation. -/
def encode : Instr → U32
  | .drvinit         => packWord 0x01 0 0
  | .setf hz         => packWord 0x02 0 hz
  | .move dir steps  => packWord 0x03 (dir.bits.setWidth 8) steps
  | .cmove dir       => packWord 0x04 (dir.bits.setWidth 8) 0
  | .stop            => packWord 0x05 0 0
  | .drvproc         => packWord 0x06 0 0
  | .setcb en        => packWord 0x07 ((BitVec.ofBool en).setWidth 8) 0
  | .rstcnt          => packWord 0x08 0 0
  | .wrfreq hz       => packWord 0x10 0 hz
  | .wrthr thr       => packWord 0x11 0 thr
  | .wrsw name val   => packWord 0x12 (name.bits.setWidth 8) ((BitVec.ofBool val).setWidth 16)
  | .swsync          => packWord 0x13 0 0
  | .rdreg addr      => packWord 0x1F addr 0
  | .seqinit         => packWord 0x20 0 0
  | .start           => packWord 0x21 0 0
  | .seqproc         => packWord 0x22 0 0
  | .reset           => packWord 0x80 0 0
  | .tmrupd          => packWord 0x81 0 0
  | .tmrcmp          => packWord 0x82 0 0
  | .tick            => packWord 0x83 0 0
  | .refclk          => packWord 0x84 0 0
  | .push sample     => packWord 0x88 0 sample
  | .rinc            => packWord 0x89 0 0
  | .rdec            => packWord 0x8A 0 0
  | .mstick          => packWord 0x8B 0 0

/-- The match and mask of an operation's row in R85. -/
def Instr.tableRow : Instr → U32 × U32
  | .drvinit  => (0x01000000, 0xFFFFFFFF)
  | .setf _   => (0x02000000, 0xFFFF0000)
  | .move _ _ => (0x03000000, 0xFFFC0000)
  | .cmove _  => (0x04000000, 0xFFFCFFFF)
  | .stop     => (0x05000000, 0xFFFFFFFF)
  | .drvproc  => (0x06000000, 0xFFFFFFFF)
  | .setcb _  => (0x07000000, 0xFFFEFFFF)
  | .rstcnt   => (0x08000000, 0xFFFFFFFF)
  | .wrfreq _ => (0x10000000, 0xFFFF0000)
  | .wrthr _  => (0x11000000, 0xFFFF0000)
  | .wrsw _ _ => (0x12000000, 0xFFFCFFFE)
  | .swsync   => (0x13000000, 0xFFFFFFFF)
  | .rdreg _  => (0x1F000000, 0xFF00FFFF)
  | .seqinit  => (0x20000000, 0xFFFFFFFF)
  | .start    => (0x21000000, 0xFFFFFFFF)
  | .seqproc  => (0x22000000, 0xFFFFFFFF)
  | .reset    => (0x80000000, 0xFFFFFFFF)
  | .tmrupd   => (0x81000000, 0xFFFFFFFF)
  | .tmrcmp   => (0x82000000, 0xFFFFFFFF)
  | .tick     => (0x83000000, 0xFFFFFFFF)
  | .refclk   => (0x84000000, 0xFFFFFFFF)
  | .push _   => (0x88000000, 0xFFFF0000)
  | .rinc     => (0x89000000, 0xFFFFFFFF)
  | .rdec     => (0x8A000000, 0xFFFFFFFF)
  | .mstick   => (0x8B000000, 0xFFFFFFFF)

/-! ### Words as bytes (20_memory.md R64: little-endian) -/

/-- The four bytes of a word, byte 0 (bits 7:0) first. -/
def bytesOfWord (w : U32) : List Byte :=
  [w.extractLsb' 0 8, w.extractLsb' 8 8, w.extractLsb' 16 8, w.extractLsb' 24 8]

/-- The word that four bytes hold, byte 0 first. -/
def wordOfBytes (b0 b1 b2 b3 : Byte) : U32 := b3 ++ b2 ++ b1 ++ b0

/-- Decode the first stimulus word of a byte list; the rest of the list comes back (R80: always four bytes). -/
def decodeBytes : List Byte → Except DecodeError (Instr × List Byte)
  | b0 :: b1 :: b2 :: b3 :: rest =>
    match decode (wordOfBytes b0 b1 b2 b3) with
    | .ok i    => .ok (i, rest)
    | .error e => .error e
  | _ => .error .truncated

/-- The operation read from `nbits` bits with value `w`, bit 0 the least significant bit of the first
(and only) word; bits above `nbits` are zero. No operation is longer than 32 bits (R80). -/
def decodeTableWord (nbits w : Nat) : Option Instr :=
  if nbits ≤ 32 ∧ w < 2 ^ nbits then
    match decodeBytes (bytesOfWord (BitVec.ofNat 32 w)) with
    | .ok (i, _) => some i
    | .error _   => none
  else none

end Sys2Proof
end

