-- ==== Sys2Proof/Machine/State.lean ====
section
/-! DEFINITION. The state of the block: the registers of 10_state.md R22 to R35, the output event trace
(00_scope.md R16, 10_state.md R20), the read-data output, the implementation parameters (R8) and the
stimuli still to come; its reset value (70_reset_and_hazards.md R251); the ways a step can stop. -/

namespace Sys2Proof.Machine

open Sys2Proof

/-- The sequence phase, register `seq_state` (10_state.md R35, 43_sequence_controller.md R189): eight names
for the eight values of three bits, `unrecognized` for 7. -/
inductive Phase where
  | idle
  | setupSwitches
  | startMoving
  | monitorCurrent
  | adjustSwitches
  | finalMove
  | complete
  | unrecognized
  deriving DecidableEq, Repr

/-- A directional pulse output. -/
inductive PulseOutput where
  | cw
  | ccw
  deriving DecidableEq, Repr

/-- An output event (00_scope.md R16). -/
inductive Event where
  /-- `EvCallback`: the completion strobe. -/
  | callback
  /-- `EvPulse(d)`: one full period of a directional output has elapsed. -/
  | pulse (d : PulseOutput)
  /-- `EvSwitch(c, h, d)`: the three switch output levels after a propagate. -/
  | switches (current holdoff division : Bool)
  deriving DecidableEq, Repr

/-- One stimulus as it reaches the block (30_encoding.md R84, R86). -/
inductive Stimulus where
  /-- A stimulus word of a script: any agent's operation, or the reset input. -/
  | word (w : U32)
  /-- A word presented on the command port (`cmd_valid`, `cmd_word`). -/
  | cmdPort (w : U32)
  /-- The reset input `rst`. -/
  | rst
  /-- `ref_tick`: one tick of the 1 MHz reference. -/
  | refTick
  /-- `smp_valid` with `smp_data`. -/
  | smpValid (data : U16)
  /-- `rot_inc`. -/
  | rotInc
  /-- `rot_dec`. -/
  | rotDec
  /-- `ms_tick`. -/
  | msTick
  deriving DecidableEq, Repr

/-- The whole state, plain data. -/
structure State where
  /-- R22. -/
  direction        : Direction
  /-- R23. -/
  targetPulses     : U16
  /-- R24. -/
  currentPulses    : U16
  /-- R25. -/
  isMoving         : Bool
  /-- R26. -/
  countingEnabled  : Bool
  /-- R27: a completion handler is registered. -/
  cbEn             : Bool
  /-- R28. -/
  period           : U32
  /-- R29. -/
  duty             : U32
  /-- R30. -/
  tickCnt          : U32
  /-- R30. -/
  tickPending      : Bool
  /-- R30. -/
  cmpPending       : Bool
  /-- R30. -/
  tickIrqEn        : Bool
  /-- R31. -/
  outCwEn          : Bool
  /-- R31. -/
  outCcwEn         : Bool
  /-- R32. -/
  freq             : U16
  /-- R32, two's complement. -/
  threshold        : U16
  /-- R32. -/
  switchCurrent    : Bool
  /-- R32. -/
  switchHoldoff    : Bool
  /-- R32. -/
  switchDivision   : Bool
  /-- R32: bit 0 current, bit 1 holdoff, bit 2 division. -/
  swOut            : BitVec 3
  /-- R33: eight slots, two's complement. -/
  buf              : Vector U16 8
  /-- R33: the next-write index. -/
  bufIdx           : BitVec 3
  /-- R34. -/
  roundCount       : U16
  /-- R35, mirror of `is_moving`. -/
  motorMoving      : Bool
  /-- R35, mirror of `target_pulses`. -/
  targetSteps      : U16
  /-- R35, mirror of `current_pulses`. -/
  currentSteps     : U16
  /-- R35, mirror of `direction`. -/
  currentDirection : Direction
  /-- R35. -/
  seqState         : Phase
  /-- R35: the running flag. -/
  seqRunning       : Bool
  /-- R35. -/
  phaseStart       : U32
  /-- R35. -/
  nowMs            : U32
  /-- R16, R20: the output event trace, oldest event first. -/
  trace            : List Event
  /-- The output port `rd_data` (30_encoding.md R86): the value of the RDREG just executed, if one was. -/
  rdData           : Option U32
  /-- R8: the implementation parameters; no step writes them. -/
  params           : Params
  /-- The stimuli not yet applied, the next one first (00_scope.md R17, 70_reset_and_hazards.md R277). -/
  script           : List Stimulus
  deriving DecidableEq, Repr

/-- The state right after reset (70_reset_and_hazards.md R250, R251): every register 0, the trace empty.
No stimulus is waiting and no RDREG has executed. -/
def State.reset : State where
  direction        := .stopped
  targetPulses     := 0
  currentPulses    := 0
  isMoving         := false
  countingEnabled  := false
  cbEn             := false
  period           := 0
  duty             := 0
  tickCnt          := 0
  tickPending      := false
  cmpPending       := false
  tickIrqEn        := false
  outCwEn          := false
  outCcwEn         := false
  freq             := 0
  threshold        := 0
  switchCurrent    := false
  switchHoldoff    := false
  switchDivision   := false
  swOut            := 0
  buf              := #v[0, 0, 0, 0, 0, 0, 0, 0]
  bufIdx           := 0
  roundCount       := 0
  motorMoving      := false
  targetSteps      := 0
  currentSteps     := 0
  currentDirection := .stopped
  seqState         := .idle
  seqRunning       := false
  phaseStart       := 0
  nowMs            := 0
  trace            := []
  rdData           := none
  params           := Config.params
  script           := []

/-- Why the machine stops with a fault: there is no such reason. The block raises no exception and no
operation traps or aborts (60_exceptions.md R220), and a false guard is never a fault
(93_implementation_defined.md U12). -/
inductive Fault where
  deriving DecidableEq, Repr

/-- Why a stimulus is refused: no step is taken, the state is what it was (30_encoding.md R88,
40_pulse_clock.md R107). All are safe: a refusal proves nothing about a next state. -/
inductive Refusal where
  /-- Raised by `exec` for an operation that has no meaning yet. Safe. -/
  | notModelled (mnemonic : String)
  /-- Raised by the fetch for a reserved word (R88); the hardware raises `cmd_refused`. Safe. -/
  | reserved (why : DecodeError)
  /-- Raised by the fetch for an event word (`op[7] = 1`) on the command port (R86). Safe. -/
  | eventOnCommandPort
  /-- Raised by TMRUPD, TMRCMP and REFCLK while no pulse output is enabled (R104 to R107). Safe. -/
  | noOutputEnabled
  /-- Raised by TICK while the tick interrupt is disabled or not pending (41_stepper_driver.md R131). Safe. -/
  | tickNotPending
  /-- Raised by RDREG of an unmapped address (20_memory.md R61); no decoded word asks for one. Safe. -/
  | unmappedRegister
  deriving DecidableEq, Repr

/-- What one operation answers. -/
abbrev Result := Host.Outcome State Fault Refusal

end Sys2Proof.Machine
end

