-- ==== Sys2Proof/Machine/Operands.lean ====
section
/-! DEFINITION. Operand forms and arithmetic of the operations: directions, clamps, the
frequency-to-period conversion (40_pulse_clock.md R100 to R102), the elapsed time
(43_sequence_controller.md R194), extensions for read values, the codes of the 2- and 3-bit registers
(30_encoding.md R83, R94). -/

namespace Sys2Proof.Machine

open Sys2Proof

/-! ### Directions and phases -/

/-- A direction that asks for motion: 1 or 2. The other two operand values degrade to `Stop()`
(41_stepper_driver.md R123, R124). -/
def asksMotion : Direction → Bool
  | .stopped          => false
  | .clockwise        => true
  | .counterClockwise => true
  | .invalid          => false

/-- The three bits of `seq_state` (43_sequence_controller.md R189). -/
def phaseBits : Phase → BitVec 3
  | .idle           => 0
  | .setupSwitches  => 1
  | .startMoving    => 2
  | .monitorCurrent => 3
  | .adjustSwitches => 4
  | .finalMove      => 5
  | .complete       => 6
  | .unrecognized   => 7

/-! ### Frequencies -/

/-- `min(hz, 1000)`: `clampf` of 40_pulse_clock.md R100 and the stored value of 42_motion_state.md R160. -/
def clampFreq (hz : U16) : U16 :=
  if Config.maxFreq < hz then Config.maxFreq else hz

/-- The natural number nearest to `n / d`; an exact half goes by the tie rule (R101). -/
def roundQuotient (ties : RoundTies) (n d : Nat) : Nat :=
  let q := n / d
  let r := n % d
  if 2 * r < d then q
  else if d < 2 * r then q + 1
  else match ties with
    | .halfUp   => q + 1
    | .halfEven => if q % 2 = 0 then q else q + 1

/-- `period_of(f) = round(1_000_000 / f) - 1` (R101). -/
def periodOf (ties : RoundTies) (f : U16) : U32 :=
  BitVec.ofNat 32 (roundQuotient ties Config.referenceRate f.toNat - 1)

/-- `duty_of(p) = floor((p + 1) / 2)` (R102). -/
def dutyOf (p : U32) : U32 := BitVec.ofNat 32 ((p.toNat + 1) / 2)

/-! ### Time -/

/-- `elapsed() = (now_ms - phase_start) mod 2^32` (43_sequence_controller.md R194). -/
def elapsed (s : State) : U32 := s.nowMs - s.phaseStart

/-- A delay has passed: `elapsed() >= D`, unsigned (R194). -/
def delayPassed (delay : U32) (s : State) : Bool := decide (delay ≤ elapsed s)

/-! ### Samples -/

/-- Every one of the eight slots is strictly below the threshold, as signed numbers
(43_sequence_controller.md R197). -/
def allBelowThreshold (s : State) : Bool := s.buf.toList.all (fun v => v.slt s.threshold)

/-! ### Read values -/

/-- A field of a read value, zero-extended (10_state.md R39). -/
def zext {n : Nat} (v : BitVec n) : U32 := v.setWidth 32

/-- A signed register as a read value, sign-extended (10_state.md R39). -/
def sext (v : U16) : U32 := v.signExtend 32

end Sys2Proof.Machine
end

