-- ==== Sys2Proof/Machine/Flags.lean ====
section
/-! DEFINITION. The flags of the block: guards of the tick source's steps, the running accessor, the
packed status words of the read map (10_state.md R39) and the output pins (40_pulse_clock.md R108,
30_encoding.md R86). No operation sets an arithmetic condition code (10_state.md R38). -/

namespace Sys2Proof.Machine

open Sys2Proof

/-! ### Guards -/

/-- Guard of TMRUPD, TMRCMP and REFCLK: an output is enabled (40_pulse_clock.md R104). -/
def outputEnabled (s : State) : Bool := s.outCwEn || s.outCcwEn

/-- Guard of TICK: enabled and pending (41_stepper_driver.md R131, 60_exceptions.md R224). -/
def tickReady (s : State) : Bool := s.tickIrqEn && s.tickPending

/-! ### Accessors and status words -/

/-- The accessor `is_running()`: the phase is not Idle (43_sequence_controller.md R202). -/
def isRunning (s : State) : Bool := !decide (s.seqState = .idle)

/-- DRV_STATUS (10_state.md R39), bit 7 first. -/
def drvStatus (s : State) : BitVec 8 :=
  BitVec.ofBool s.outCcwEn ++ BitVec.ofBool s.outCwEn ++ BitVec.ofBool s.cmpPending
    ++ BitVec.ofBool s.tickPending ++ BitVec.ofBool s.tickIrqEn ++ BitVec.ofBool s.cbEn
    ++ BitVec.ofBool s.countingEnabled ++ BitVec.ofBool s.isMoving

/-- `{switch_division, switch_holdoff, switch_current}` (43_sequence_controller.md R193). -/
def switchFlags (s : State) : BitVec 3 :=
  BitVec.ofBool s.switchDivision ++ BitVec.ofBool s.switchHoldoff ++ BitVec.ofBool s.switchCurrent

/-- SWITCHES (10_state.md R39): `sw_out` in bits 10:8, the flags in bits 2:0. -/
def switchesStatus (s : State) : BitVec 11 := s.swOut ++ (0 : BitVec 5) ++ switchFlags s

/-- MIRROR_STATUS (10_state.md R39). -/
def mirrorStatus (s : State) : BitVec 3 := s.currentDirection.bits ++ BitVec.ofBool s.motorMoving

/-- SEQ_STATUS (10_state.md R39): bit 9 `is_running`, bit 8 `seq_running`, bits 2:0 `seq_state`. -/
def seqStatus (s : State) : BitVec 10 :=
  BitVec.ofBool (isRunning s) ++ BitVec.ofBool s.seqRunning ++ (0 : BitVec 5) ++ phaseBits s.seqState

/-! ### Output pins -/

/-- `pulse_cw` (40_pulse_clock.md R108). R108 gives the formula at the reference-clock level and says that at the
event level (TMRUPD and TMRCMP, no REFCLK) the pins are not modelled tick by tick; that it holds in every state is
the model's DESIGN CHOICE (log entry 16), unsafe for a claim about an enabled output's pin in an event-level run.
For `period = 0` see log entry 8. -/
def pulseCw (s : State) : Bool := s.outCwEn && decide (s.tickCnt < s.duty)

/-- `pulse_ccw` (40_pulse_clock.md R108), in every state as `pulseCw` is: DESIGN CHOICE, unsafe (log entries 8 and 16). -/
def pulseCcw (s : State) : Bool := s.outCcwEn && decide (s.tickCnt < s.duty)

/-- `sw_current_o` (30_encoding.md R86). -/
def swCurrentOut (s : State) : Bool := s.swOut.getLsbD 0

/-- `sw_holdoff_o` (30_encoding.md R86). -/
def swHoldoffOut (s : State) : Bool := s.swOut.getLsbD 1

/-- `sw_division_o` (30_encoding.md R86). -/
def swDivisionOut (s : State) : Bool := s.swOut.getLsbD 2

end Sys2Proof.Machine
end

