-- ==== Sys2Proof/Machine/Ops.lean ====
section
/-! DEFINITION. The shared operations: event emission, the driver's four procedures
(41_stepper_driver.md R121 to R124), the end of a pulse period (40_pulse_clock.md R104), the propagation
of the switch flags (43_sequence_controller.md R193), and the register read (20_memory.md R61).
The block takes no exceptions (60_exceptions.md R220): there is no entry or return to write. -/

namespace Sys2Proof.Machine

open Sys2Proof

/-- `emit E`: append an event to the trace (00_scope.md R15, R16). -/
def emit (e : Event) (s : State) : State := { s with trace := s.trace ++ [e] }

/-! ### Driver procedures -/

/-- The events of one `Stop()`: the callback, if a handler is registered and the mode lets it fire (R121). -/
def stopEvents (s : State) : List Event :=
  if s.cbEn && (!s.params.cbEdgeOnly || s.isMoving) then [.callback] else []

/-- Procedure `Stop()` (R121). -/
def stop (s : State) : State :=
  { s with
    outCwEn          := false
    outCcwEn         := false
    tickIrqEn        := false
    isMoving         := false
    direction        := .stopped
    motorMoving      := false
    targetSteps      := 0
    currentSteps     := 0
    currentDirection := .stopped
    trace            := s.trace ++ stopEvents s }

/-- The programmed part of `SetFrequency`: `period` and `duty` for a frequency already clamped (R122). -/
def program (f : U16) (s : State) : State :=
  { s with
    period := periodOf s.params.roundTies f
    duty   := dutyOf (periodOf s.params.roundTies f) }

/-- Procedure `SetFrequency(hz)` (R122). -/
def setFrequency (hz : U16) (s : State) : State :=
  if hz = 0 then stop s else program (clampFreq hz) s

/-- The first writes of a successful `Move`: the count, the target, counting on (R123). -/
def moveCounts (steps : U16) (s : State) : State :=
  { s with currentPulses := 0, targetPulses := steps, countingEnabled := true }

/-- The last writes of a successful `Move`: tick source, outputs, status and mirror (R123). -/
def moveStart (dir : Direction) (steps : U16) (s : State) : State :=
  { s with
    tickCnt          := 0
    tickPending      := false
    cmpPending       := false
    outCwEn          := decide (dir = .clockwise)
    outCcwEn         := decide (dir = .counterClockwise)
    tickIrqEn        := true
    isMoving         := true
    direction        := dir
    motorMoving      := true
    currentDirection := dir
    targetSteps      := steps
    currentSteps     := 0 }

/-- Procedure `Move(dir, steps)` (R123). -/
def boundedMove (dir : Direction) (steps : U16) (s : State) : State :=
  if steps = 0 ∨ asksMotion dir = false then stop s
  else moveStart dir steps (setFrequency s.params.originFreq.hz (moveCounts steps s))

/-- The writes of a successful `ContinueMove`: the other direction's output is left as it is (R124). -/
def continueStart (dir : Direction) (s : State) : State :=
  { s with
    countingEnabled  := false
    targetPulses     := Config.noLimit
    outCwEn          := s.outCwEn || decide (dir = .clockwise)
    outCcwEn         := s.outCcwEn || decide (dir = .counterClockwise)
    tickIrqEn        := false
    isMoving         := true
    direction        := dir
    motorMoving      := true
    currentDirection := dir
    targetSteps      := Config.noLimit
    currentSteps     := s.currentPulses }

/-- Procedure `ContinueMove(dir)` (R124). -/
def continueMove (dir : Direction) (s : State) : State :=
  if asksMotion dir = false then stop s else continueStart dir s

/-! ### Tick source -/

/-- The pulse events of one elapsed period, clockwise first (40_pulse_clock.md R104). -/
def pulseEvents (s : State) : List Event :=
  (if s.outCwEn then [.pulse .cw] else []) ++ (if s.outCcwEn then [.pulse .ccw] else [])

/-- One programmed period has elapsed: the body of TMRUPD, and of a wrapping REFCLK (R104, R106). -/
def periodElapsed (s : State) : State :=
  { s with tickCnt := 0, tickPending := true, trace := s.trace ++ pulseEvents s }

/-- One reference tick inside a period: count, and flag the duty point (R106). -/
def countReference (s : State) : State :=
  { s with
    tickCnt    := s.tickCnt + 1
    cmpPending := s.cmpPending || decide (s.tickCnt + 1 = s.duty) }

/-- The tick handler clears the pending flag unconditionally (41_stepper_driver.md R131). -/
def clearTick (s : State) : State := { s with tickPending := false }

/-- `current_pulses <- (current_pulses + 1) mod 65536` (R131). -/
def onePulse (s : State) : State := { s with currentPulses := s.currentPulses + 1 }

/-- The counting part of the tick handler: one pulse more, and the stop check on the new count (R131). -/
def countPulse (s : State) : State :=
  if (onePulse s).targetPulses ≤ (onePulse s).currentPulses then stop (onePulse s) else onePulse s

/-- "mirrors current_pulses into MotionState" (41_stepper_driver.md R130). -/
def mirrorPulses (s : State) : State := { s with currentSteps := s.currentPulses }

/-! ### Switches -/

/-- Procedure `Propagate()` (43_sequence_controller.md R193); SWSYNC does the same (42_motion_state.md R163). -/
def propagate (s : State) : State :=
  emit (.switches s.switchCurrent s.switchHoldoff s.switchDivision) { s with swOut := switchFlags s }

/-! ### Sequencer -/

/-- A transition that records no time (43_sequence_controller.md R199). -/
def setPhase (p : Phase) (s : State) : State := { s with seqState := p }

/-- The running flag set (43_sequence_controller.md R191). -/
def startRunning (s : State) : State := { s with seqRunning := true }

/-- A transition that "records time" (43_sequence_controller.md R191 to R198). -/
def enterPhase (p : Phase) (s : State) : State := { s with seqState := p, phaseStart := s.nowMs }

/-! ### Register read -/

/-- The slot of the sample buffer at an address of 0x18..0x1F (10_state.md R39). -/
def bufRead (n : Nat) (s : State) : Option U32 :=
  if 0x18 ≤ n then (s.buf[n - 0x18]?).map sext else none

/-- `RegRead(addr)` (20_memory.md R61): the value of a mapped address (10_state.md R39), none for an
unmapped one. It changes nothing. -/
def regRead (addr : Byte) (s : State) : Option U32 :=
  match addr.toNat with
  | 0x00 => some (zext s.direction.bits)
  | 0x01 => some (zext s.targetPulses)
  | 0x02 => some (zext s.currentPulses)
  | 0x03 => some (zext (drvStatus s))
  | 0x04 => some s.period
  | 0x05 => some s.duty
  | 0x06 => some s.tickCnt
  | 0x08 => some (zext s.freq)
  | 0x09 => some (zext s.params.originFreq.hz)
  | 0x0A => some (sext s.threshold)
  | 0x0B => some (zext (switchesStatus s))
  | 0x0C => some (zext s.bufIdx)
  | 0x0D => some (zext s.roundCount)
  | 0x0E => some (zext (mirrorStatus s))
  | 0x0F => some (zext s.targetSteps)
  | 0x10 => some (zext s.currentSteps)
  | 0x11 => some (zext (seqStatus s))
  | 0x12 => some s.phaseStart
  | 0x13 => some s.nowMs
  | n    => bufRead n s

end Sys2Proof.Machine
end

