-- ==== Sys2Proof/Machine/Driver.lean ====
section
/-! DEFINITION. The operations of the StepperDriver (41_stepper_driver.md R125 to R133). -/

namespace Sys2Proof.Machine

open Sys2Proof

/-- DRVINIT (R125): the registers of 10_state.md R22 to R31 and the four mirror registers. -/
def execDrvinit (s : State) : Result :=
  .next { s with
    direction        := .stopped
    targetPulses     := 0
    currentPulses    := 0
    isMoving         := false
    countingEnabled  := false
    cbEn             := false
    period           := 0
    duty             := 0
    tickCnt          := 0
    tickPending      := false
    cmpPending       := false
    tickIrqEn        := false
    outCwEn          := false
    outCcwEn         := false
    motorMoving      := false
    targetSteps      := 0
    currentSteps     := 0
    currentDirection := .stopped }

/-- SETF (R126). -/
def execSetf (hz : U16) (s : State) : Result := .next (setFrequency hz s)

/-- MOVE (R127). -/
def execMove (dir : Direction) (steps : U16) (s : State) : Result := .next (boundedMove dir steps s)

/-- CMOVE (R128). -/
def execCmove (dir : Direction) (s : State) : Result := .next (continueMove dir s)

/-- STOP (R129). -/
def execStop (s : State) : Result := .next (stop s)

/-- DRVPROC (R130): nothing when not moving; else the mirror, and the backstop stop. -/
def execDrvproc (s : State) : Result :=
  if s.isMoving then
    .next (if s.countingEnabled && decide (s.targetPulses ≤ s.currentPulses) then stop (mirrorPulses s)
      else mirrorPulses s)
  else .next s

/-- TICK (R131), the tick interrupt handler. -/
def execTick (s : State) : Result :=
  if tickReady s then .next (if s.countingEnabled then countPulse (clearTick s) else clearTick s)
  else .refused .tickNotPending

/-- SETCB (R132). -/
def execSetcb (en : Bool) (s : State) : Result := .next { s with cbEn := en }

/-- RSTCNT (R133). -/
def execRstcnt (s : State) : Result := .next { s with currentPulses := 0 }

end Sys2Proof.Machine
end

