-- ==== Sys2Proof/Machine/MotionState.lean ====
section
/-! DEFINITION. The operations on MotionState (42_motion_state.md R160 to R172). -/

namespace Sys2Proof.Machine

open Sys2Proof

/-- WRFREQ (R160). -/
def execWrfreq (hz : U16) (s : State) : Result := .next { s with freq := clampFreq hz }

/-- WRTHR (R161). -/
def execWrthr (thr : U16) (s : State) : Result := .next { s with threshold := thr }

/-- WRSW (R162): the flag only, not its pin. -/
def execWrsw (name : SwitchName) (val : Bool) (s : State) : Result :=
  match name with
  | .current  => .next { s with switchCurrent := val }
  | .holdoff  => .next { s with switchHoldoff := val }
  | .division => .next { s with switchDivision := val }

/-- SWSYNC (R163). -/
def execSwsync (s : State) : Result := .next (propagate s)

/-- PUSH (R168): the slot `buf_idx` names, then the index advances modulo 8. -/
def execPush (sample : U16) (s : State) : Result :=
  .next { s with buf := s.buf.set s.bufIdx.toNat sample s.bufIdx.isLt, bufIdx := s.bufIdx + 1 }

/-- RINC (R169): saturates at 65535. -/
def execRinc (s : State) : Result :=
  if s.roundCount < 65535 then .next { s with roundCount := s.roundCount + 1 } else .next s

/-- RDEC (R170): saturates at 0. -/
def execRdec (s : State) : Result :=
  if 0 < s.roundCount then .next { s with roundCount := s.roundCount - 1 } else .next s

/-- MSTICK (R171). -/
def execMstick (s : State) : Result := .next { s with nowMs := s.nowMs + 1 }

/-- RDREG (R172): the read value is the step's only effect; an unmapped address is refused (30_encoding.md R88). -/
def execRdreg (addr : Byte) (s : State) : Result :=
  match regRead addr s with
  | some v => .next { s with rdData := some v }
  | none   => .refused .unmappedRegister

end Sys2Proof.Machine
end

