-- ==== Sys2Proof/Machine/PulseClock.lean ====
section
/-! DEFINITION. The operations of the tick source (40_pulse_clock.md R104 to R107). -/

namespace Sys2Proof.Machine

open Sys2Proof

/-- TMRUPD (R104). -/
def execTmrupd (s : State) : Result :=
  if outputEnabled s then .next (periodElapsed s) else .refused .noOutputEnabled

/-- TMRCMP (R105). -/
def execTmrcmp (s : State) : Result :=
  if outputEnabled s then .next { s with cmpPending := true } else .refused .noOutputEnabled

/-- REFCLK (R106): the period ends when `tick_cnt >= period`. -/
def execRefclk (s : State) : Result :=
  if outputEnabled s then
    .next (if s.period ≤ s.tickCnt then periodElapsed s else countReference s)
  else .refused .noOutputEnabled

end Sys2Proof.Machine
end

