-- ==== Sys2Proof/Machine/ResetInput.lean ====
section
/-! DEFINITION. The reset input (70_reset_and_hazards.md R250). -/

namespace Sys2Proof.Machine

open Sys2Proof

/-- RESET (R250): every register its reset value, the trace empty. The parameters are not state and the
stimuli still to come are the environment's: both stay. -/
def execReset (s : State) : Result :=
  .next { State.reset with params := s.params, script := s.script }

end Sys2Proof.Machine
end

