-- ==== Sys2Proof/Machine/Sequencer.lean ====
section
/-! DEFINITION. The operations of the SequenceController (43_sequence_controller.md R189 to R202): SEQINIT,
START, and SEQPROC with one body per phase. -/

namespace Sys2Proof.Machine

open Sys2Proof

/-- SEQINIT (R190). -/
def execSeqinit (s : State) : Result :=
  .next { s with seqState := .idle, seqRunning := false, phaseStart := 0 }

/-- START (R191): nothing when already running. -/
def execStart (s : State) : Result :=
  if s.seqRunning then .next s
  else .next (startRunning (enterPhase .setupSwitches s))

/-- Phase SetupSwitches (R195). -/
def phaseSetupSwitches (s : State) : State :=
  enterPhase .startMoving
    (propagate { s with switchCurrent := true, switchHoldoff := false, switchDivision := true })

/-- Phase StartMoving (R196). -/
def phaseStartMoving (s : State) : State :=
  if delayPassed Config.startDelay s then
    enterPhase .monitorCurrent (continueMove .clockwise (setFrequency s.freq s))
  else s

/-- Phase MonitorCurrent (R197). -/
def phaseMonitorCurrent (s : State) : State :=
  if allBelowThreshold s then enterPhase .adjustSwitches s else s

/-- Phase AdjustSwitches (R198). -/
def phaseAdjustSwitches (s : State) : State :=
  enterPhase .finalMove (propagate { s with switchCurrent := false, switchDivision := false })

/-- Phase FinalMove (R199): `Stop()` on every poll; the transition to Complete records no time. -/
def phaseFinalMove (s : State) : State :=
  if delayPassed Config.settleDelay s then
    setPhase .complete
      (boundedMove .clockwise Config.finalSteps (setFrequency s.params.originFreq.hz (stop s)))
  else stop s

/-- Phase Complete (R200). -/
def phaseComplete (s : State) : State :=
  if s.isMoving then s else { s with seqState := .idle, seqRunning := false }

/-- Phase Idle or unrecognized (R201). -/
def phaseIdle (s : State) : State := { s with seqRunning := false }

/-- The one phase body a poll runs, chosen by `seq_state` at its start (R192). -/
def phaseBody (s : State) : State :=
  match s.seqState with
  | .idle           => phaseIdle s
  | .setupSwitches  => phaseSetupSwitches s
  | .startMoving    => phaseStartMoving s
  | .monitorCurrent => phaseMonitorCurrent s
  | .adjustSwitches => phaseAdjustSwitches s
  | .finalMove      => phaseFinalMove s
  | .complete       => phaseComplete s
  | .unrecognized   => phaseIdle s

/-- SEQPROC (R192). -/
def execSeqproc (s : State) : Result := if s.seqRunning then .next (phaseBody s) else .next s

end Sys2Proof.Machine
end

