-- ==== Sys2Proof/Machine/Dispatch.lean ====
section
/-! DEFINITION. The dispatch of every operation to its meaning. -/

namespace Sys2Proof.Machine

open Sys2Proof

/-- One operation on one state: one atomic step (20_memory.md R62). -/
def exec (i : Instr) (s : State) : Host.Outcome State Fault Refusal :=
  match i with
  | .drvinit => Sys2Proof.Machine.execDrvinit s
  | .setf hz => Sys2Proof.Machine.execSetf hz s
  | .move dir steps => Sys2Proof.Machine.execMove dir steps s
  | .cmove dir => Sys2Proof.Machine.execCmove dir s
  | .stop => Sys2Proof.Machine.execStop s
  | .drvproc => Sys2Proof.Machine.execDrvproc s
  | .setcb en => Sys2Proof.Machine.execSetcb en s
  | .rstcnt => Sys2Proof.Machine.execRstcnt s
  | .wrfreq hz => Sys2Proof.Machine.execWrfreq hz s
  | .wrthr thr => Sys2Proof.Machine.execWrthr thr s
  | .wrsw name val => Sys2Proof.Machine.execWrsw name val s
  | .swsync => Sys2Proof.Machine.execSwsync s
  | .rdreg addr => Sys2Proof.Machine.execRdreg addr s
  | .seqinit => Sys2Proof.Machine.execSeqinit s
  | .start => Sys2Proof.Machine.execStart s
  | .seqproc => Sys2Proof.Machine.execSeqproc s
  | .reset => Sys2Proof.Machine.execReset s
  | .tmrupd => Sys2Proof.Machine.execTmrupd s
  | .tmrcmp => Sys2Proof.Machine.execTmrcmp s
  | .tick => Sys2Proof.Machine.execTick s
  | .refclk => Sys2Proof.Machine.execRefclk s
  | .push sample => Sys2Proof.Machine.execPush sample s
  | .rinc => Sys2Proof.Machine.execRinc s
  | .rdec => Sys2Proof.Machine.execRdec s
  | .mstick => Sys2Proof.Machine.execMstick s

end Sys2Proof.Machine
end

