-- ==== Sys2Proof/Machine/Fetch.lean ====
section
/-! DEFINITION. How a stimulus reaches the block: the next entry of the script, read as an operation
(30_encoding.md R84, R86, R87). -/

namespace Sys2Proof.Machine

open Sys2Proof

/-- A stimulus word as an operation, or its refusal as reserved (30_encoding.md R88). -/
def readWord (w : U32) : Except Refusal Instr :=
  match decode w with
  | .ok i    => .ok i
  | .error e => .error (.reserved e)

/-- The operation a stimulus stands for. The command port takes words of `op[7] = 0` only; each strobe
input is one operation of its agent (R86). -/
def readStimulus : Stimulus → Except Refusal Instr
  | .word w      => readWord w
  | .cmdPort w   => if w.getLsbD 31 then .error .eventOnCommandPort else readWord w
  | .rst         => .ok .reset
  | .refTick     => .ok .refclk
  | .smpValid v  => .ok (.push v)
  | .rotInc      => .ok .rinc
  | .rotDec      => .ok .rdec
  | .msTick      => .ok .mstick

/-- What the fetch finds. -/
inductive Fetched where
  /-- No stimulus is waiting: the block waits (70_reset_and_hazards.md R250). -/
  | waiting
  /-- An operation, and the state it runs on. -/
  | run (i : Instr) (s : State)
  /-- The stimulus is refused. -/
  | refused (r : Refusal)
  deriving DecidableEq, Repr

/-- The state an operation runs on: its stimulus taken off the script, `rd_data` of an earlier step gone. -/
def takeStimulus (rest : List Stimulus) (s : State) : State :=
  { s with script := rest, rdData := none }

/-- Take the next stimulus of the script. -/
def fetch (s : State) : Fetched :=
  match s.script with
  | []        => .waiting
  | x :: rest =>
    match readStimulus x with
    | .ok i    => .run i (takeStimulus rest s)
    | .error r => .refused r

/-- A stimulus word of `nbits` bits with value `w` put in front of the script, the bits above `nbits` zero. -/
def placeWord (nbits w : Nat) (s : State) : State :=
  { s with script := .word (BitVec.ofNat 32 (w % 2 ^ nbits)) :: s.script }

end Sys2Proof.Machine
end

