-- ==== Sys2Proof/Machine/Step.lean ====
section
/-! DEFINITION. One step of the machine: the next stimulus of the script, fetched and executed; and the
placing of a stimulus word where the next step takes it. -/

namespace Sys2Proof.Machine

open Sys2Proof

/-- One step: with no stimulus waiting the block waits, unchanged; a stimulus is executed as one atomic
operation (20_memory.md R62) or refused with no next state (30_encoding.md R88). -/
def step (s : State) : Host.Outcome State Fault Refusal :=
  match fetch s with
  | .waiting   => .next s
  | .run i t   => exec i t
  | .refused r => .refused r

/-- `s` with one stimulus word in front of its script. -/
def State.withFetchWord (s : State) (nbits w : Nat) : State := placeWord nbits w s

end Sys2Proof.Machine
end

