-- ==== Sys2Proof/Machine/Script.lean ====
section
/-! DEFINITION. Scripts: a list of operations applied in order (00_scope.md R17, 70_reset_and_hazards.md
R277), the pseudo-operations (30_encoding.md R92) and the script text (R91). -/

namespace Sys2Proof.Machine

open Sys2Proof

/-! ### Runs of operations -/

/-- Apply operations in order, stopping at the first that is refused. -/
def execAll : List Instr → State → Result
  | [],      s => .next s
  | i :: is, s =>
    match exec i s with
    | .next t    => execAll is t
    | .fault f   => .fault f
    | .refused r => .refused r

/-- Apply stimuli in order past the refused ones, as the programs of 95_test_vectors.md run: a refused stimulus
leaves the state unchanged and is reported, as `cmd_refused` reports one (30_encoding.md R86, R88; 40_pulse_clock.md
R107). The answer is the end state (70_reset_and_hazards.md R277) and the refusals in order. -/
def applyAll : List Stimulus → State → State × List Refusal
  | [],      s => (s, [])
  | x :: xs, s =>
    match readStimulus x with
    | .error r => ((applyAll xs s).1, r :: (applyAll xs s).2)
    | .ok i    =>
      match exec i s with
      | .next t    => applyAll xs t
      | .fault f   => nomatch f
      | .refused r => ((applyAll xs s).1, r :: (applyAll xs s).2)

/-- The script words of a list of operations. -/
def scriptOf (is : List Instr) : List Stimulus := is.map (fun i => .word (encode i))

/-! ### Pseudo-operations (R92) -/

/-- A script line: an operation, or a pseudo-operation, which has no encoding of its own. -/
inductive ScriptLine where
  | op (i : Instr)
  | pulse
  | pulses (n : Nat)
  | waitms (n : Nat)
  | poll
  | fill (v : U16)
  deriving DecidableEq, Repr

/-- The operations a line stands for (R92). -/
def ScriptLine.expand : ScriptLine → List Instr
  | .op i     => [i]
  | .pulse    => [.tmrupd, .tick]
  | .pulses n => (List.replicate n [.tmrupd, .tick]).flatten
  | .waitms n => List.replicate n .mstick
  | .poll     => [.drvproc, .seqproc]
  | .fill v   => List.replicate 8 (.push v)

/-! ### Script text (R91) -/

/-- Space or tab. -/
def isBlank (c : Char) : Bool := c == ' ' || c == '\t'

/-- A text without the blanks at its two ends. -/
def trim (l : List Char) : List Char := ((l.dropWhile isBlank).reverse.dropWhile isBlank).reverse

/-- The pieces of a text between commas; `acc` is the present piece, reversed. -/
def splitCommas : List Char → List Char → List (List Char)
  | acc, []      => [acc.reverse]
  | acc, c :: cs => if c = ',' then acc.reverse :: splitCommas [] cs else splitCommas (c :: acc) cs

/-- The value of a digit in base 10 or 16. -/
def digitValue (base : Nat) (c : Char) : Option Nat :=
  let v :=
    if '0' ≤ c ∧ c ≤ '9' then c.toNat - '0'.toNat
    else if 'a' ≤ c ∧ c ≤ 'f' then c.toNat - 'a'.toNat + 10
    else if 'A' ≤ c ∧ c ≤ 'F' then c.toNat - 'A'.toNat + 10
    else 16
  if v < base then some v else none

/-- Digits after a value already read. -/
def readDigits (base : Nat) : Nat → List Char → Option Nat
  | v, []      => some v
  | v, c :: cs =>
    match digitValue base c with
    | some d => readDigits base (v * base + d) cs
    | none   => none

/-- "numbers are decimal or `0x` hexadecimal". -/
def readNat : List Char → Option Nat
  | []                  => none
  | '0' :: 'x' :: c :: cs => readDigits 16 0 (c :: cs)
  | c :: cs             => readDigits 10 0 (c :: cs)

/-- A `u16` operand. -/
def readU16 (l : List Char) : Option U16 :=
  match readNat l with
  | some n => if n < 65536 then some (BitVec.ofNat 16 n) else none
  | none   => none

/-- An `i16` operand, which "may carry a minus sign". -/
def readI16 : List Char → Option U16
  | '-' :: cs =>
    match readNat cs with
    | some n => if n ≤ 32768 then some (BitVec.ofInt 16 (-n)) else none
    | none   => none
  | cs =>
    match readNat cs with
    | some n => if n < 32768 then some (BitVec.ofNat 16 n) else none
    | none   => none

/-- An operand of one bit. -/
def readBit (l : List Char) : Option Bool :=
  match readNat l with
  | some 0 => some false
  | some 1 => some true
  | _      => none

/-- The entry of a table of names. -/
def readName {α : Type} (l : List Char) : List (String × α) → Option α
  | []             => none
  | (n, v) :: rest => if n.toList = l then some v else readName l rest

/-- The spellings of `dir`. -/
def directionNames : List (String × Direction) :=
  [("STOPPED", .stopped), ("CW", .clockwise), ("CCW", .counterClockwise), ("DIR3", .invalid)]

/-- The spellings of `name`. -/
def switchNames : List (String × SwitchName) :=
  [("current", .current), ("holdoff", .holdoff), ("division", .division)]

/-- The register names of 10_state.md R39. -/
def registerNames : List (String × Byte) :=
  [("DIRECTION", 0x00), ("TARGET_PULSES", 0x01), ("CURRENT_PULSES", 0x02), ("DRV_STATUS", 0x03),
   ("PERIOD", 0x04), ("DUTY", 0x05), ("TICK_CNT", 0x06), ("FREQ", 0x08), ("ORIGIN_FREQ", 0x09),
   ("THRESHOLD", 0x0A), ("SWITCHES", 0x0B), ("BUF_IDX", 0x0C), ("ROUND_COUNT", 0x0D),
   ("MIRROR_STATUS", 0x0E), ("TARGET_STEPS", 0x0F), ("CURRENT_STEPS", 0x10), ("SEQ_STATUS", 0x11),
   ("PHASE_START", 0x12), ("NOW_MS", 0x13)]
  ++ [("BUF0", 0x18), ("BUF1", 0x19), ("BUF2", 0x1A), ("BUF3", 0x1B),
      ("BUF4", 0x1C), ("BUF5", 0x1D), ("BUF6", 0x1E), ("BUF7", 0x1F)]

/-- An `addr` operand: a register name or a number. -/
def readAddr (l : List Char) : Option Byte :=
  match readName l registerNames with
  | some a => some a
  | none   =>
    match readNat l with
    | some n => if n < 256 then some (BitVec.ofNat 8 n) else none
    | none   => none

/-- The operations without operands, and the pseudo-operations without operands. -/
def plainNames : List (String × ScriptLine) :=
  [("DRVINIT", .op .drvinit), ("STOP", .op .stop), ("DRVPROC", .op .drvproc), ("RSTCNT", .op .rstcnt),
   ("SWSYNC", .op .swsync), ("SEQINIT", .op .seqinit), ("START", .op .start), ("SEQPROC", .op .seqproc),
   ("RESET", .op .reset), ("TMRUPD", .op .tmrupd), ("TMRCMP", .op .tmrcmp), ("TICK", .op .tick),
   ("REFCLK", .op .refclk), ("RINC", .op .rinc), ("RDEC", .op .rdec), ("MSTICK", .op .mstick),
   ("PULSE", .pulse), ("POLL", .poll)]

/-- The mnemonics with one operand, each with the reader of its operand. -/
def oneOperand (l : List Char) : List (String × Option ScriptLine) :=
  [("SETF", (readU16 l).map (fun v => .op (.setf v))),
   ("CMOVE", (readName l directionNames).map (fun d => .op (.cmove d))),
   ("SETCB", (readBit l).map (fun b => .op (.setcb b))),
   ("WRFREQ", (readU16 l).map (fun v => .op (.wrfreq v))),
   ("WRTHR", (readI16 l).map (fun v => .op (.wrthr v))),
   ("RDREG", (readAddr l).map (fun a => .op (.rdreg a))),
   ("PUSH", (readI16 l).map (fun v => .op (.push v))),
   ("PULSES", (readNat l).map .pulses),
   ("WAITMS", (readNat l).map .waitms),
   ("FILL", (readI16 l).map .fill)]

/-- The mnemonics with two operands. -/
def twoOperands (x y : List Char) : List (String × Option ScriptLine) :=
  [("MOVE", match readName x directionNames, readU16 y with
      | some d, some n => some (.op (.move d n))
      | _, _           => none),
   ("WRSW", match readName x switchNames, readBit y with
      | some n, some b => some (.op (.wrsw n b))
      | _, _           => none)]

/-- A line of script text: "the mnemonic in upper case, then the operands separated by commas"; a `;`
starts a comment. A blank line stands for no line; a malformed one answers `none`. -/
def readLine (text : List Char) : Option (List ScriptLine) :=
  let body := trim (text.takeWhile (fun c => c != ';'))
  if body = [] then some [] else
  let mnemonic := body.takeWhile (fun c => !isBlank c)
  match (splitCommas [] (body.dropWhile (fun c => !isBlank c))).map trim with
  | [[]]   => (readName mnemonic plainNames).map (fun x => [x])
  | [x]    => ((readName mnemonic (oneOperand x)).join).map (fun r => [r])
  | [x, y] => ((readName mnemonic (twoOperands x y)).join).map (fun r => [r])
  | _      => none

/-- The operations of a script text, line by line; `none` if a line is malformed. -/
def readScript : List String → Option (List Instr)
  | []         => some []
  | l :: lines =>
    match readLine l.toList, readScript lines with
    | some here, some rest => some ((here.map ScriptLine.expand).flatten ++ rest)
    | _, _                 => none

end Sys2Proof.Machine
end

