-- ==== Sys2Proof/Safety.lean ====
section
/-! DEFINITION. What counts as a safe state (10_state.md R40 to R44), and the words claims use: rounding,
and what an operation does to the driver. -/

namespace Sys2Proof.Safety

open Sys2Proof Sys2Proof.Machine

/-! ### The invariants of every reachable state -/

/-- R40: the running flag and the phase agree, and the phase is one of the seven. -/
def SequencerConsistent (s : State) : Prop :=
  s.seqState ≠ .unrecognized ∧ (s.seqRunning = true ↔ s.seqState ≠ .idle)

/-- R41: the mirror follows the driver. -/
def MirrorConsistent (s : State) : Prop :=
  s.motorMoving = s.isMoving ∧ s.currentDirection = s.direction ∧
    s.targetSteps = if s.isMoving then s.targetPulses else 0

/-- R42: a stopped driver is quiet; a moving one drives the output of its direction. -/
def StoppedQuiet (s : State) : Prop :=
  (s.isMoving = false →
    s.outCwEn = false ∧ s.outCcwEn = false ∧ s.tickIrqEn = false ∧ s.direction = .stopped) ∧
  (s.isMoving = true →
    (s.direction = .clockwise ∧ s.outCwEn = true) ∨
    (s.direction = .counterClockwise ∧ s.outCcwEn = true))

/-- R43: while the tick interrupt is enabled a bounded move is below its target; and a bounded move in
progress has the interrupt enabled. -/
def CountingWindow (s : State) : Prop :=
  (s.tickIrqEn = true →
    s.isMoving = true ∧ s.countingEnabled = true ∧ 1 ≤ s.targetPulses.toNat ∧
      s.currentPulses.toNat < s.targetPulses.toNat) ∧
  (s.isMoving = true → s.countingEnabled = true → s.tickIrqEn = true)

/-- R44: ranges of `freq`, `period` and `duty`. -/
def RangesHeld (s : State) : Prop :=
  s.freq.toNat ≤ 1000 ∧
  (s.period.toNat = 0 ∨ (999 ≤ s.period.toNat ∧ s.period.toNat ≤ 999999)) ∧
  s.duty.toNat = if s.period.toNat = 0 then 0 else (s.period.toNat + 1) / 2

/-- All five. -/
structure Inv (s : State) : Prop where
  sequencer : SequencerConsistent s
  mirror    : MirrorConsistent s
  quiet     : StoppedQuiet s
  counting  : CountingWindow s
  ranges    : RangesHeld s

/-! ### Rounding (40_pulse_clock.md R101) -/

/-- `q` is the exact quotient `n / d` rounded to the nearest natural number, an exact half going up or to
the even neighbour by the tie rule. Said by comparison with the halves at `q - 1/2` and `q + 1/2`, not by division. -/
def RoundsTo (ties : RoundTies) (n d q : Nat) : Prop :=
  match ties with
  | .halfUp   => 2 * q * d ≤ 2 * n + d ∧ 2 * n < 2 * q * d + d
  | .halfEven =>
      (2 * q * d < 2 * n + d ∧ 2 * n < 2 * q * d + d) ∨
      (2 * q * d = 2 * n + d ∧ q % 2 = 0) ∨
      (2 * n = 2 * q * d + d ∧ q % 2 = 0)

/-! ### Kinds of operations -/

/-- Operations that neither call a driver procedure, nor initialise the driver, nor reset the block, nor
rewrite its pulse count: what 41_stepper_driver.md R136 lets stand beside TMRUPD and TICK during a move. -/
def leavesDriverAlone : Instr → Bool
  | .drvinit => false
  | .setf _ => false
  | .move _ _ => false
  | .cmove _ => false
  | .stop => false
  | .drvproc => false
  | .setcb _ => false
  | .rstcnt => false
  | .wrfreq _ => true
  | .wrthr _ => true
  | .wrsw _ _ => true
  | .swsync => true
  | .rdreg _ => true
  | .seqinit => true
  | .start => true
  | .seqproc => false
  | .reset => false
  | .tmrupd => true
  | .tmrcmp => true
  | .tick => true
  | .refclk => true
  | .push _ => true
  | .rinc => true
  | .rdec => true
  | .mstick => true

/-- Operations of the reference-clock level: every one but TMRUPD and TMRCMP (40_pulse_clock.md R107). -/
def referenceLevel : Instr → Bool
  | .drvinit | .setf _ | .move _ _ | .cmove _ | .stop | .drvproc | .setcb _ | .rstcnt | .wrfreq _
  | .wrthr _ | .wrsw _ _ | .swsync | .rdreg _ | .seqinit | .start | .seqproc | .reset => true
  | .tmrupd => false
  | .tmrcmp => false
  | .tick | .refclk | .push _ | .rinc | .rdec | .mstick => true

/-- Operations of the event level: every one but REFCLK (40_pulse_clock.md R107). -/
def eventLevel : Instr → Bool
  | .drvinit | .setf _ | .move _ _ | .cmove _ | .stop | .drvproc | .setcb _ | .rstcnt | .wrfreq _
  | .wrthr _ | .wrsw _ _ | .swsync | .rdreg _ | .seqinit | .start | .seqproc | .reset | .tmrupd
  | .tmrcmp | .tick => true
  | .refclk => false
  | .push _ | .rinc | .rdec | .mstick => true

/-- Operations that can execute `Stop()` in some state (41_stepper_driver.md R121 to R131, SEQPROC through its
phases); every operation that can start a move is among them, since its degraded form is `Stop()`. -/
def canStop : Instr → Bool
  | .drvinit => false
  | .setf hz => decide (hz = 0)
  | .move _ _ => true
  | .cmove _ => true
  | .stop => true
  | .drvproc => true
  | .setcb _ | .rstcnt | .wrfreq _ | .wrthr _ | .wrsw _ _ | .swsync | .rdreg _ | .seqinit | .start => false
  | .seqproc => true
  | .reset | .tmrupd | .tmrcmp => false
  | .tick => true
  | .refclk | .push _ | .rinc | .rdec | .mstick => false

/-- Operations that can execute `Move`. -/
def canMove : Instr → Bool
  | .drvinit | .setf _ => false
  | .move _ _ => true
  | .cmove _ | .stop | .drvproc | .setcb _ | .rstcnt | .wrfreq _ | .wrthr _ | .wrsw _ _ | .swsync
  | .rdreg _ | .seqinit | .start => false
  | .seqproc => true
  | .reset | .tmrupd | .tmrcmp | .tick | .refclk | .push _ | .rinc | .rdec | .mstick => false

/-- Operations that can execute `ContinueMove`. -/
def canContinue : Instr → Bool
  | .drvinit | .setf _ | .move _ _ => false
  | .cmove _ => true
  | .stop | .drvproc | .setcb _ | .rstcnt | .wrfreq _ | .wrthr _ | .wrsw _ _ | .swsync | .rdreg _
  | .seqinit | .start => false
  | .seqproc => true
  | .reset | .tmrupd | .tmrcmp | .tick | .refclk | .push _ | .rinc | .rdec | .mstick => false

/-- Operations that can execute `SetFrequency` on a frequency other than 0. -/
def canProgram : Instr → Bool
  | .drvinit => false
  | .setf hz => !decide (hz = 0)
  | .move _ _ => true
  | .cmove _ | .stop | .drvproc | .setcb _ | .rstcnt | .wrfreq _ | .wrthr _ | .wrsw _ _ | .swsync
  | .rdreg _ | .seqinit | .start => false
  | .seqproc => true
  | .reset | .tmrupd | .tmrcmp | .tick | .refclk | .push _ | .rinc | .rdec | .mstick => false

/-- Operations that write every driver, pulse-clock and mirror register. -/
def initialises : Instr → Bool
  | .drvinit => true
  | .setf _ | .move _ _ | .cmove _ | .stop | .drvproc | .setcb _ | .rstcnt | .wrfreq _ | .wrthr _
  | .wrsw _ _ | .swsync | .rdreg _ | .seqinit | .start | .seqproc => false
  | .reset => true
  | .tmrupd | .tmrcmp | .tick | .refclk | .push _ | .rinc | .rdec | .mstick => false

/-! ### The opcode table as a whole (30_encoding.md R85) -/

/-- One operation of each row, operands zero. -/
def tableForms : List Instr :=
  [.drvinit, .setf 0, .move .stopped 0, .cmove .stopped, .stop, .drvproc, .setcb false, .rstcnt,
   .wrfreq 0, .wrthr 0, .wrsw .current false, .swsync, .rdreg 0, .seqinit, .start, .seqproc]
  ++ [.reset, .tmrupd, .tmrcmp, .tick, .refclk, .push 0, .rinc, .rdec, .mstick]

/-- The extra condition of a row. -/
def extraCondition (form : Instr) (w : U32) : Prop :=
  match form with
  | .drvinit | .setf _ | .move _ _ | .cmove _ | .stop | .drvproc | .setcb _ | .rstcnt | .wrfreq _ | .wrthr _ => True
  | .wrsw _ _ => (aField w).extractLsb' 0 2 ≠ 3
  | .swsync => True
  | .rdreg _ => mappedAddr (aField w) = true
  | .seqinit | .start | .seqproc | .reset | .tmrupd | .tmrcmp | .tick | .refclk | .push _ | .rinc | .rdec
  | .mstick => True

/-- "A word matches a row when `(W and mask) = match` and the row's extra condition holds." -/
def RowMatches (form : Instr) (w : U32) : Prop :=
  w &&& form.tableRow.2 = form.tableRow.1 ∧ extraCondition form w

/-! ### Observations -/

/-- RDREG of an address completes with a read value, and does nothing else (42_motion_state.md R172). -/
def ReadsAs (s : State) (addr : Byte) (v : U32) : Prop :=
  exec (.rdreg addr) s = .next { s with rdData := some v }

/-- The number of milliseconds between two clock values, modulo 2^32 (43_sequence_controller.md R194). -/
def millisSince (start now : U32) : Nat := (now.toNat + 2 ^ 32 - start.toNat) % 2 ^ 32

/-- The phase after a phase, in the fixed order of 43_sequence_controller.md R189. -/
def nextPhase : Phase → Phase
  | .idle           => .setupSwitches
  | .setupSwitches  => .startMoving
  | .startMoving    => .monitorCurrent
  | .monitorCurrent => .adjustSwitches
  | .adjustSwitches => .finalMove
  | .finalMove      => .complete
  | .complete       => .idle
  | .unrecognized   => .unrecognized

/-- The number of a direction register's value (10_state.md R22). -/
def directionNumber : Direction → Nat
  | .stopped          => 0
  | .clockwise        => 1
  | .counterClockwise => 2
  | .invalid          => 3

/-- The number of a phase (43_sequence_controller.md R189). -/
def phaseNumber : Phase → Nat
  | .idle           => 0
  | .setupSwitches  => 1
  | .startMoving    => 2
  | .monitorCurrent => 3
  | .adjustSwitches => 4
  | .finalMove      => 5
  | .complete       => 6
  | .unrecognized   => 7

/-- The output a direction of motion drives. -/
def outputOf (d : Direction) : PulseOutput := if d = .clockwise then .cw else .ccw

/-- A state without the reference-tick count and the read output: what the event level shows of it. -/
def eventView (s : State) : State := { s with tickCnt := 0, rdData := none }

/-- How many completion strobes a trace holds. -/
def callbacks (tr : List Event) : Nat := tr.count .callback

end Sys2Proof.Safety
end

