-- ==== Sys2Proof/Certificates/Slice0/Obligations.lean ====
section
/-! DEFINITION. What is claimed of the model: one definition per statement, each citing the rules of the
spec it formalises. -/

open Sys2Proof Sys2Proof.Machine Sys2Proof.Safety

/-! ### Encoding -/

/-- The words that 30_encoding.md R91 writes out decode to the operations it names. -/
def Obligations.DocumentedWordsDecode : Prop :=
  decode 0x030107D0 = .ok (.move .clockwise 2000) ∧
  decode 0x020001F4 = .ok (.setf 500) ∧
  decode 0x04020000 = .ok (.cmove .counterClockwise) ∧
  decode 0x11000032 = .ok (.wrthr 50) ∧
  decode 0x1100FFFF = .ok (.wrthr (-1)) ∧
  decode 0x12020001 = .ok (.wrsw .division true) ∧
  decode 0x8800003C = .ok (.push 60) ∧
  decode 0x1F110000 = .ok (.rdreg 0x11) ∧
  decode 0x07010000 = .ok (.setcb true) ∧
  decode 0x05000000 = .ok .stop

/-- Every well-formed operation, with every operand at every value, is decoded back from its word (R83, R85,
R87). -/
def Obligations.EncodedInstructionDecodesBack : Prop :=
  ∀ i : Instr, i.wellFormed = true → decode (encode i) = .ok i

/-- Whatever a word decodes to is well formed and encodes to that very word: no two words mean the same (R82,
R85). -/
def Obligations.DecodedWordEncodesBack : Prop :=
  ∀ (w : U32) (i : Instr), decode w = .ok i → i.wellFormed = true ∧ encode i = w

/-- R85: a word is an operation exactly when it matches a row, it matches at most one row, and the operation
it decodes to is of a row it matches. -/
def Obligations.TableRowsDecideDecoding : Prop :=
  ∀ w : U32,
    ((∃ i, decode w = .ok i) ↔ ∃ r ∈ tableForms, RowMatches r w) ∧
    (∀ r ∈ tableForms, ∀ r' ∈ tableForms, RowMatches r w → RowMatches r' w → r = r') ∧
    (∀ i, decode w = .ok i → RowMatches i w)

/-- R88: the four classes of reserved words, the all-zero word among them, and that a reserved word at the
head of the script is refused. -/
def Obligations.ReservedWordsRefused : Prop :=
  (∀ w : U32, (∀ r ∈ tableForms, opField w ≠ opField r.tableRow.1) → decode w = .error .undefinedOp) ∧
  (∀ w : U32, ∀ r ∈ tableForms, opField w = opField r.tableRow.1 → w &&& r.tableRow.2 ≠ r.tableRow.1 →
    ∃ e, decode w = .error e) ∧
  (∀ w : U32, opField w = 0x12 → (aField w).extractLsb' 0 2 = 3 → decode w = .error .reservedSwitch) ∧
  (∀ w : U32, opField w = 0x1F → mappedAddr (aField w) = false → decode w = .error .unmappedAddress) ∧
  decode 0x00000000 = .error .undefinedOp ∧
  (∀ (s : State) (w : U32) (rest : List Stimulus) (e : DecodeError),
    s.script = .word w :: rest → decode w = .error e → step s = .refused (.reserved e))

/-- R84: bit 31 of a word separates the command port's operations from the other agents'. -/
def Obligations.EventBitNamesTheAgent : Prop :=
  ∀ (w : U32) (i : Instr), decode w = .ok i → (w.getLsbD 31 = true ↔ i.agent ≠ .cmd)

/-- 20_memory.md R64: a word written as bytes has bits 7:0 first, `wordOfBytes` reads it back from its four
bytes, and it decodes from them as it decodes as a word, the bytes after it left over. -/
def Obligations.WordBytesLittleEndian : Prop :=
  ∀ (w : U32) (rest : List Byte),
    (bytesOfWord w).map BitVec.toNat =
      [w.toNat % 256, w.toNat / 256 % 256, w.toNat / 65536 % 256, w.toNat / 16777216] ∧
    (∃ b0 b1 b2 b3, bytesOfWord w = [b0, b1, b2, b3] ∧ wordOfBytes b0 b1 b2 b3 = w) ∧
    (∀ i, decode w = .ok i → decodeBytes (bytesOfWord w ++ rest) = .ok (i, rest)) ∧
    (∀ e, decode w = .error e → decodeBytes (bytesOfWord w ++ rest) = .error e)

/-! ### The step -/

/-- A step runs the operation that the script's next word decodes to, on the state with that word taken off
and the read output of an earlier step gone. The script is the model's (log entry 1), the read output too (log
entry 3). -/
def Obligations.StepRunsDecodedInstruction : Prop :=
  ∀ (s : State) (w : U32) (rest : List Stimulus) (i : Instr),
    s.script = .word w :: rest → decode w = .ok i →
      step s = exec i { s with script := rest, rdData := none }

/-- R86, R88: the command port takes a word of `op[7] = 0` as its operation, refuses a reserved one, and
refuses every event word; each strobe input is one operation of its agent. That the ports are stimuli of the
script, that a step takes the first of them off it and empties the read output, and that a refusal has no next
state, is the model's (log entries 1, 3, 4 and 5). -/
def Obligations.PortsRunTheirOperations : Prop :=
  ∀ (s : State) (rest : List Stimulus),
    (∀ w i, s.script = .cmdPort w :: rest → w.getLsbD 31 = false → decode w = .ok i →
      step s = exec i { s with script := rest, rdData := none }) ∧
    (∀ w e, s.script = .cmdPort w :: rest → w.getLsbD 31 = false → decode w = .error e →
      step s = .refused (.reserved e)) ∧
    (∀ w, s.script = .cmdPort w :: rest → w.getLsbD 31 = true → step s = .refused .eventOnCommandPort) ∧
    (s.script = .rst :: rest → step s = exec .reset { s with script := rest, rdData := none }) ∧
    (s.script = .refTick :: rest → step s = exec .refclk { s with script := rest, rdData := none }) ∧
    (∀ v, s.script = .smpValid v :: rest → step s = exec (.push v) { s with script := rest, rdData := none }) ∧
    (s.script = .rotInc :: rest → step s = exec .rinc { s with script := rest, rdData := none }) ∧
    (s.script = .rotDec :: rest → step s = exec .rdec { s with script := rest, rdData := none }) ∧
    (s.script = .msTick :: rest → step s = exec .mstick { s with script := rest, rdData := none })

/-- With no stimulus waiting a step changes nothing: the model's choice (log entry 1) for a block that waits
for stimuli (70_reset_and_hazards.md section 1) and acts on a poll only (section 3). -/
def Obligations.WaitingBlockUnchanged : Prop :=
  ∀ s : State, s.script = [] → step s = .next s

/-- A script of operations runs as those operations one after another, over the host's `run` (R62, R69, R277);
only the read output may differ, which a step empties and `execAll` does not (log entries 1 and 3). A refused
operation ends both, the model's choice of log entry 4. `applyAll` goes on past it, as the spec's programs do:
a stimulus that a step refuses leaves the state unchanged and is reported (R88, R107), one that a step runs
has that step's effect, and either way the next stimulus follows. -/
def Obligations.ScriptRunsAsItsOperations : Prop :=
  (∀ (is : List Instr) (s : State) (rest : List Stimulus),
    (∀ i ∈ is, i.wellFormed = true) → s.script = scriptOf is ++ rest →
      (∀ t, execAll is { s with script := rest } = .next t →
        ∃ d, Host.Core.run core is.length s = .next { t with rdData := d }) ∧
      (∀ r, execAll is { s with script := rest } = .refused r →
        Host.Core.run core is.length s = .refused r)) ∧
  (∀ s : State, applyAll [] s = (s, [])) ∧
  (∀ (x : Stimulus) (xs : List Stimulus) (s : State),
    (∀ r, step { s with script := x :: xs } = .refused r →
      applyAll (x :: xs) s = ((applyAll xs s).1, r :: (applyAll xs s).2)) ∧
    (∀ t, step { s with script := x :: xs } = .next t →
      ∃ d, applyAll (x :: xs) s = applyAll xs { t with script := s.script, rdData := d }))

/-- R63, R220: every well-formed operation of an agent other than the pulse clock completes in every state. -/
def Obligations.EveryOtherAgentAlwaysEnabled : Prop :=
  ∀ (i : Instr) (s : State), i.wellFormed = true → i.agent ≠ .tmr → ∃ t, exec i s = .next t

/-! ### The pulse clock -/

/-- R104, R105: TMRUPD (word 0x81000000) and TMRCMP (word 0x82000000) with an output enabled. -/
def Obligations.TmrupdAndTmrcmpResult : Prop :=
  decode 0x81000000 = .ok .tmrupd ∧ decode 0x82000000 = .ok .tmrcmp ∧
  ∀ s : State, s.outCwEn = true ∨ s.outCcwEn = true →
    exec .tmrupd s = .next { s with
      tickCnt := 0
      tickPending := true
      trace := s.trace ++ (if s.outCwEn then [.pulse .cw] else [])
        ++ (if s.outCcwEn then [.pulse .ccw] else []) } ∧
    exec .tmrcmp s = .next { s with cmpPending := true }

/-- R106: REFCLK (word 0x84000000) with an output enabled ends the period, as TMRUPD does, or counts without
wrapping and flags the duty point. -/
def Obligations.RefclkResult : Prop :=
  decode 0x84000000 = .ok .refclk ∧
  ∀ s : State, s.outCwEn = true ∨ s.outCcwEn = true →
    (s.period.toNat ≤ s.tickCnt.toNat → exec .refclk s = exec .tmrupd s) ∧
    (s.tickCnt.toNat < s.period.toNat →
      ∃ c : U32, c.toNat = s.tickCnt.toNat + 1 ∧
        exec .refclk s = .next { s with
          tickCnt := c
          cmpPending := if c = s.duty then true else s.cmpPending })

/-- R107: a step of the pulse clock whose guard is false is refused. -/
def Obligations.TickSourceRefusedUnlessReady : Prop :=
  ∀ s : State,
    (s.outCwEn = false → s.outCcwEn = false →
      exec .tmrupd s = .refused .noOutputEnabled ∧
      exec .tmrcmp s = .refused .noOutputEnabled ∧
      exec .refclk s = .refused .noOutputEnabled) ∧
    (s.tickIrqEn = false ∨ s.tickPending = false → exec .tick s = .refused .tickNotPending)

/-- R106, R108: from a count of 0 a period lasts `period + 1` reference ticks; inside it the count rises by
one a tick, no pulse event is emitted and each output pin is active for the first `duty` ticks; at its end the
count is 0 again, the tick is pending and each enabled output has emitted one pulse. Of the waveform while
`period = 0` nothing is claimed (93_implementation_defined.md U13, log entry 8). -/
def Obligations.PeriodLastsItsReferenceTicks : Prop :=
  ∀ s : State, s.outCwEn = true ∨ s.outCcwEn = true → s.tickCnt = 0 →
    (∀ k, k ≤ s.period.toNat → ∃ t, execAll (List.replicate k .refclk) s = .next t ∧
      t.tickCnt.toNat = k ∧ t.trace = s.trace ∧ t.tickPending = s.tickPending ∧
      (s.period ≠ 0 →
        (pulseCw t = true ↔ s.outCwEn = true ∧ k < s.duty.toNat) ∧
        (pulseCcw t = true ↔ s.outCcwEn = true ∧ k < s.duty.toNat))) ∧
    (∃ t, execAll (List.replicate (s.period.toNat + 1) .refclk) s = .next t ∧
      t.tickCnt = 0 ∧ t.tickPending = true ∧
      t.trace = s.trace ++ (if s.outCwEn then [.pulse .cw] else [])
        ++ (if s.outCcwEn then [.pulse .ccw] else []))

/-- The spec's own inference in R107: every run at the reference-clock level is a run of the event level, seen
without the reference-tick count and the read output. -/
def Obligations.ReferenceLevelRefinesEventLevel : Prop :=
  ∀ (is : List Instr) (s t : State), (∀ i ∈ is, referenceLevel i = true) → execAll is s = .next t →
    ∃ js u, (∀ j ∈ js, eventLevel j = true) ∧ execAll js s = .next u ∧ eventView u = eventView t

/-! ### The driver -/

/-- R121, R129: STOP clears the outputs, the tick interrupt, the moving flags and the mirror, keeps everything
else, and emits the callback by its mode; by R108 the pin of a disabled output is at its idle level, so both
are after STOP. -/
def Obligations.StopResult : Prop :=
  (∀ s : State, exec .stop s = .next { s with
    outCwEn := false
    outCcwEn := false
    tickIrqEn := false
    isMoving := false
    direction := .stopped
    motorMoving := false
    targetSteps := 0
    currentSteps := 0
    currentDirection := .stopped
    trace := if s.cbEn = true ∧ (s.params.cbEdgeOnly = false ∨ s.isMoving = true)
      then s.trace ++ [.callback] else s.trace }) ∧
  (∀ s : State, (s.outCwEn = false → pulseCw s = false) ∧ (s.outCcwEn = false → pulseCcw s = false)) ∧
  (∀ s t : State, exec .stop s = .next t → pulseCw t = false ∧ pulseCcw t = false)

/-- R137, the spec's own inference from R121: STOP twice leaves the registers of STOP once; the second adds a
callback exactly when a handler is registered and the callback is not edge-only. -/
def Obligations.StopIdempotentOnRegisters : Prop :=
  ∀ s : State, ∃ t u, exec .stop s = .next t ∧ exec .stop t = .next u ∧
    t.isMoving = false ∧ t.currentDirection = .stopped ∧
    u = { t with trace := u.trace } ∧
    u.trace = if s.cbEn = true ∧ s.params.cbEdgeOnly = false then t.trace ++ [.callback] else t.trace

/-- R89: invalid parameters are no refusals: MOVE with no steps or no direction of motion, CMOVE with no
direction of motion and SETF 0 execute as STOP, which completes, and SETF and WRFREQ above 1000 do what they
do at 1000. -/
def Obligations.InvalidParametersDegrade : Prop :=
  ∀ s : State,
    (∀ d n, n = 0 ∨ d = .stopped ∨ d = .invalid → exec (.move d n) s = exec .stop s) ∧
    (∀ d, d = .stopped ∨ d = .invalid → exec (.cmove d) s = exec .stop s) ∧
    exec (.setf 0) s = exec .stop s ∧
    (∃ t, exec .stop s = .next t) ∧
    (∀ hz : U16, 1000 < hz.toNat →
      exec (.setf hz) s = exec (.setf 1000) s ∧ exec (.wrfreq hz) s = exec (.wrfreq 1000) s ∧
      (∃ t, exec (.setf hz) s = .next t) ∧ ∃ t, exec (.wrfreq hz) s = .next t)

/-- R100, R122: SETF 0 is STOP; SETF with `hz` not 0 programs the quotient of 1 000 000 by the clamped
frequency, rounded by the tie rule, less one, and half of the quotient rounded down, and writes nothing else.
-/
def Obligations.SetfProgramsRoundedPeriod : Prop :=
  (∀ s : State, exec (.setf 0) s = exec .stop s) ∧
  ∀ (hz : U16) (s : State), hz ≠ 0 →
    ∃ q, RoundsTo s.params.roundTies 1000000 (min hz.toNat 1000) q ∧
      1000 ≤ q ∧ q ≤ 1000000 ∧
      exec (.setf hz) s = .next { s with
        period := BitVec.ofNat 32 (q - 1)
        duty := BitVec.ofNat 32 (q / 2) }

/-- The spec's own inference in R101, and R272: the tie rule matters at 128 Hz and 640 Hz only, where the half
goes up or to the even period count. -/
def Obligations.TieRuleMattersAtTwoFrequencies : Prop :=
  ∀ (hz : U16) (s t u : State), hz ≠ 0 →
    exec (.setf hz) { s with params := { s.params with roundTies := .halfUp } } = .next t →
    exec (.setf hz) { s with params := { s.params with roundTies := .halfEven } } = .next u →
      (hz ≠ 128 → hz ≠ 640 → t.period = u.period) ∧
      (hz = 128 → t.period = 7812 ∧ u.period = 7811) ∧
      (hz = 640 → t.period = 1562 ∧ u.period = 1561)

/-- The closing sentence of R101: a higher requested frequency never programs a longer period. -/
def Obligations.PeriodNonIncreasingInFrequency : Prop :=
  ∀ (a b : U16) (s t u : State), a ≠ 0 → a.toNat ≤ b.toNat →
    exec (.setf a) s = .next t → exec (.setf b) s = .next u → u.period.toNat ≤ t.period.toNat

/-- R123: MOVE with steps and a direction of motion starts a bounded move at `ORIGIN_FREQ`; otherwise it is
STOP. -/
def Obligations.MoveResult : Prop :=
  (∀ (d : Direction) (n : U16) (s : State), n = 0 ∨ d = .stopped ∨ d = .invalid →
    exec (.move d n) s = exec .stop s) ∧
  ∀ (d : Direction) (n : U16) (s : State), n ≠ 0 → d = .clockwise ∨ d = .counterClockwise →
    ∃ q, RoundsTo s.params.roundTies 1000000 s.params.originFreq.hz.toNat q ∧
      exec (.move d n) s = .next { s with
        currentPulses := 0
        targetPulses := n
        countingEnabled := true
        period := BitVec.ofNat 32 (q - 1)
        duty := BitVec.ofNat 32 (q / 2)
        tickCnt := 0
        tickPending := false
        cmpPending := false
        outCwEn := if d = .clockwise then true else false
        outCcwEn := if d = .counterClockwise then true else false
        tickIrqEn := true
        isMoving := true
        direction := d
        motorMoving := true
        currentDirection := d
        targetSteps := n
        currentSteps := 0 }

/-- R124: CMOVE with a direction of motion starts an unbounded move, the other output keeping its enable;
otherwise it is STOP. -/
def Obligations.CmoveResult : Prop :=
  (∀ (d : Direction) (s : State), d = .stopped ∨ d = .invalid → exec (.cmove d) s = exec .stop s) ∧
  ∀ (d : Direction) (s : State), d = .clockwise ∨ d = .counterClockwise →
    exec (.cmove d) s = .next { s with
      countingEnabled := false
      targetPulses := 65535
      outCwEn := if d = .clockwise then true else s.outCwEn
      outCcwEn := if d = .counterClockwise then true else s.outCcwEn
      tickIrqEn := false
      isMoving := true
      direction := d
      motorMoving := true
      currentDirection := d
      targetSteps := 65535
      currentSteps := s.currentPulses }

/-- R125: DRVINIT, word 0x01000000, returns every driver, pulse-clock and mirror register to its reset value,
with no event, and writes nothing else. -/
def Obligations.DrvinitResult : Prop :=
  decode 0x01000000 = .ok .drvinit ∧
  ∀ s : State, exec .drvinit s = .next { s with
    direction := .stopped
    targetPulses := 0
    currentPulses := 0
    isMoving := false
    countingEnabled := false
    cbEn := false
    period := 0
    duty := 0
    tickCnt := 0
    tickPending := false
    cmpPending := false
    tickIrqEn := false
    outCwEn := false
    outCcwEn := false
    motorMoving := false
    targetSteps := 0
    currentSteps := 0
    currentDirection := .stopped }

/-- R130: DRVPROC (word 0x06000000) does nothing when not moving; else it mirrors the count, and stops a
counted move that has reached its target. -/
def Obligations.DrvprocResult : Prop :=
  decode 0x06000000 = .ok .drvproc ∧
  ∀ s : State,
    (s.isMoving = false → exec .drvproc s = .next s) ∧
    (s.isMoving = true → s.countingEnabled = false ∨ s.currentPulses.toNat < s.targetPulses.toNat →
      exec .drvproc s = .next { s with currentSteps := s.currentPulses }) ∧
    (s.isMoving = true → s.countingEnabled = true → s.targetPulses.toNat ≤ s.currentPulses.toNat →
      exec .drvproc s = exec .stop s)

/-- R131: TICK (word 0x83000000) with its guard true clears the flag; while counting it adds one pulse modulo
65536 and stops the move when the new count has reached the target. -/
def Obligations.TickResult : Prop :=
  decode 0x83000000 = .ok .tick ∧
  ∀ s : State, s.tickIrqEn = true → s.tickPending = true →
    (s.countingEnabled = false → exec .tick s = .next { s with tickPending := false }) ∧
    (s.countingEnabled = true → ∃ n : U16, n.toNat = (s.currentPulses.toNat + 1) % 65536 ∧
      (n.toNat < s.targetPulses.toNat →
        exec .tick s = .next { s with tickPending := false, currentPulses := n }) ∧
      (s.targetPulses.toNat ≤ n.toNat →
        exec .tick s = exec .stop { s with tickPending := false, currentPulses := n }))

/-- R132, R133: SETCB registers or removes the handler; RSTCNT zeroes the pulse count; neither writes anything
else; and their words. -/
def Obligations.SetcbAndRstcntResult : Prop :=
  decode 0x07000000 = .ok (.setcb false) ∧ decode 0x07010000 = .ok (.setcb true) ∧
  decode 0x08000000 = .ok .rstcnt ∧
  ∀ s : State,
    (∀ en, exec (.setcb en) s = .next { s with cbEn := en }) ∧
    exec .rstcnt s = .next { s with currentPulses := 0 }

/-- R136, the spec's own inference from R123 and R131: after a successful MOVE of `n` pulses, whatever steps
follow that leave the driver alone, the count is the number of TICKs among them, at most `n`; the motor moves
as long as it is below `n`; at `n` the outputs and the tick interrupt are off, and exactly one callback has
been emitted if a handler is registered. SEQPROC, which calls driver procedures, and RESET are not among those
steps. -/
def Obligations.CountingLaw : Prop :=
  ∀ (d : Direction) (n : U16) (s : State), n ≠ 0 → d = .clockwise ∨ d = .counterClockwise →
    ∃ m, exec (.move d n) s = .next m ∧
      ∀ (is : List Instr) (t : State), (∀ i ∈ is, leavesDriverAlone i = true) → execAll is m = .next t →
        is.count .tick ≤ n.toNat ∧
        t.currentPulses.toNat = is.count .tick ∧
        (t.isMoving = true ↔ is.count .tick < n.toNat) ∧
        (is.count .tick = n.toNat → t.outCwEn = false ∧ t.outCcwEn = false ∧ t.tickIrqEn = false) ∧
        callbacks t.trace =
          callbacks s.trace + (if is.count .tick = n.toNat ∧ s.cbEn = true then 1 else 0)

/-- R136 and R138, the spec's own inferences, and R266: when every elapsed period is followed by its tick, a
MOVE of `n` pulses completes after `n` of them with `n` pulse events on its own output and one callback, and
the next period is refused. -/
def Obligations.PulsesCompleteAMove : Prop :=
  ∀ (d : Direction) (n : U16) (s : State), n ≠ 0 → d = .clockwise ∨ d = .counterClockwise →
    ∃ m t, exec (.move d n) s = .next m ∧
      execAll (ScriptLine.pulses n.toNat).expand m = .next t ∧
      t.currentPulses = n ∧ t.isMoving = false ∧
      t.trace = s.trace ++ List.replicate n.toNat (.pulse (outputOf d))
        ++ (if s.cbEn then [.callback] else []) ∧
      execAll ScriptLine.pulse.expand t = .refused .noOutputEnabled

/-! ### MotionState -/

/-- R160, R161, R162: the command layer's writes and their words; each writes its one register and nothing
else. -/
def Obligations.ConfigurationWrites : Prop :=
  (∀ hz : U16, decode (0x10000000 ||| hz.setWidth 32) = .ok (.wrfreq hz)) ∧
  (∀ thr : U16, decode (0x11000000 ||| thr.setWidth 32) = .ok (.wrthr thr)) ∧
  decode 0x12000000 = .ok (.wrsw .current false) ∧ decode 0x12000001 = .ok (.wrsw .current true) ∧
  decode 0x12010000 = .ok (.wrsw .holdoff false) ∧ decode 0x12010001 = .ok (.wrsw .holdoff true) ∧
  decode 0x12020000 = .ok (.wrsw .division false) ∧ decode 0x12020001 = .ok (.wrsw .division true) ∧
  ∀ s : State,
    (∀ hz : U16, ∃ f : U16, f.toNat = min hz.toNat 1000 ∧ exec (.wrfreq hz) s = .next { s with freq := f }) ∧
    (∀ thr, exec (.wrthr thr) s = .next { s with threshold := thr }) ∧
    (∀ b, exec (.wrsw .current b) s = .next { s with switchCurrent := b }) ∧
    (∀ b, exec (.wrsw .holdoff b) s = .next { s with switchHoldoff := b }) ∧
    (∀ b, exec (.wrsw .division b) s = .next { s with switchDivision := b })

/-- R163 (the pins by R86): SWSYNC, word 0x13000000, drives the three switch pins from the three flags, emits
their levels, and writes nothing else. -/
def Obligations.SwsyncDrivesThePins : Prop :=
  decode 0x13000000 = .ok .swsync ∧
  ∀ s : State, ∃ t, exec .swsync s = .next t ∧
    swCurrentOut t = s.switchCurrent ∧ swHoldoffOut t = s.switchHoldoff ∧
    swDivisionOut t = s.switchDivision ∧
    t = { s with
      swOut := t.swOut
      trace := s.trace ++ [.switches s.switchCurrent s.switchHoldoff s.switchDivision] }

/-- R168: PUSH (word 0x88000000 or'ed with the sample) writes the slot the index names, advances the index
modulo 8, and nothing else. -/
def Obligations.PushResult : Prop :=
  (∀ v : U16, decode (0x88000000 ||| v.setWidth 32) = .ok (.push v)) ∧
  ∀ (v : U16) (s : State), ∃ t, exec (.push v) s = .next t ∧
    t = { s with buf := t.buf, bufIdx := t.bufIdx } ∧
    t.bufIdx.toNat = (s.bufIdx.toNat + 1) % 8 ∧
    ∀ (k : Nat) (hk : k < 8), t.buf[k] = if k = s.bufIdx.toNat then v else s.buf[k]

/-- R165, the spec's own inference from R168: after any pushes from reset the index is their number modulo 8,
the last eight of them stand in their slots, and a slot not yet pushed to holds 0. -/
def Obligations.BufferLaw : Prop :=
  ∀ l : List U16, ∃ t, execAll (l.map .push) State.reset = .next t ∧
    t.bufIdx.toNat = l.length % 8 ∧
    (∀ (j : Nat) (hj : j < l.length), l.length ≤ j + 8 → t.buf[j % 8]? = some l[j]) ∧
    (∀ k, k < 8 → l.length ≤ k → t.buf[k]? = some 0)

/-- R169, R170: RINC (word 0x89000000) and RDEC (word 0x8A000000) saturate at 65535 and at 0 and write the
round count only. -/
def Obligations.RoundCountSaturates : Prop :=
  decode 0x89000000 = .ok .rinc ∧ decode 0x8A000000 = .ok .rdec ∧
  ∀ s : State,
    (∃ r : U16, r.toNat = min (s.roundCount.toNat + 1) 65535 ∧ exec .rinc s = .next { s with roundCount := r }) ∧
    (∃ r : U16, r.toNat = s.roundCount.toNat - 1 ∧ exec .rdec s = .next { s with roundCount := r })

/-- R173, the spec's own inference from R169 and R170: any sequence of RINC and RDEC leaves the left fold of
the saturating updates. -/
def Obligations.RoundCountFolds : Prop :=
  ∀ (is : List Instr) (s : State), (∀ i ∈ is, i = .rinc ∨ i = .rdec) →
    ∃ r : U16, execAll is s = .next { s with roundCount := r } ∧
      r.toNat = is.foldl (fun n i => if i = .rinc then min (n + 1) 65535 else max n 1 - 1) s.roundCount.toNat

/-- R171: MSTICK (word 0x8B000000) advances the clock modulo 2^32; no other operation but RESET changes the
clock. -/
def Obligations.MstickResult : Prop :=
  decode 0x8B000000 = .ok .mstick ∧
  (∀ s : State, ∃ n : U32, n.toNat = (s.nowMs.toNat + 1) % 4294967296 ∧
    exec .mstick s = .next { s with nowMs := n }) ∧
  (∀ (i : Instr) (s t : State), i ≠ .mstick → i ≠ .reset → exec i s = .next t → t.nowMs = s.nowMs)

/-- R61, R88, R172: RDREG completes exactly at a mapped address, with a read value and no other effect; an
unmapped address is refused. -/
def Obligations.RdregCompletesWhenMapped : Prop :=
  ∀ (addr : Byte) (s : State),
    (mappedAddr addr = true → ∃ v, exec (.rdreg addr) s = .next { s with rdData := some v }) ∧
    (mappedAddr addr = false → exec (.rdreg addr) s = .refused .unmappedRegister)

/-- R39, R22: the value read at each address that holds one register: a direction as its number (0 Stopped, 1
Clockwise, 2 CounterClockwise), unsigned registers as the same number, signed registers as the same integer.
-/
def Obligations.RegisterReadValues : Prop :=
  ∀ s : State,
    (∃ v, ReadsAs s 0x00 v ∧ v.toNat = directionNumber s.direction) ∧
    (∃ v, ReadsAs s 0x01 v ∧ v.toNat = s.targetPulses.toNat) ∧
    (∃ v, ReadsAs s 0x02 v ∧ v.toNat = s.currentPulses.toNat) ∧
    ReadsAs s 0x04 s.period ∧
    ReadsAs s 0x05 s.duty ∧
    ReadsAs s 0x06 s.tickCnt ∧
    (∃ v, ReadsAs s 0x08 v ∧ v.toNat = s.freq.toNat) ∧
    (∃ v, ReadsAs s 0x09 v ∧ v.toNat = s.params.originFreq.hz.toNat) ∧
    (∃ v, ReadsAs s 0x0A v ∧ v.toInt = s.threshold.toInt) ∧
    (∃ v, ReadsAs s 0x0C v ∧ v.toNat = s.bufIdx.toNat) ∧
    (∃ v, ReadsAs s 0x0D v ∧ v.toNat = s.roundCount.toNat) ∧
    (∃ v, ReadsAs s 0x0F v ∧ v.toNat = s.targetSteps.toNat) ∧
    (∃ v, ReadsAs s 0x10 v ∧ v.toNat = s.currentSteps.toNat) ∧
    ReadsAs s 0x12 s.phaseStart ∧
    ReadsAs s 0x13 s.nowMs ∧
    (∀ (k : Nat) (hk : k < 8), ∃ v, ReadsAs s (BitVec.ofNat 8 (0x18 + k)) v ∧ v.toInt = s.buf[k].toInt)

/-- R39, R22, R189: the four packed status registers: DRV_STATUS and SWITCHES bit by bit, MIRROR_STATUS and
SEQ_STATUS as the sum of their fields, with the direction and the phase as their numbers (phases: 0 Idle to 6
Complete, 7 unrecognized); bits not listed read 0. -/
def Obligations.StatusReadBits : Prop :=
  ∀ s : State,
    (∃ v, ReadsAs s 0x03 v ∧ ∀ n, v.getLsbD n = match n with
      | 0 => s.isMoving
      | 1 => s.countingEnabled
      | 2 => s.cbEn
      | 3 => s.tickIrqEn
      | 4 => s.tickPending
      | 5 => s.cmpPending
      | 6 => s.outCwEn
      | 7 => s.outCcwEn
      | _ => false) ∧
    (∃ v, ReadsAs s 0x0B v ∧ ∀ n, v.getLsbD n = match n with
      | 0  => s.switchCurrent
      | 1  => s.switchHoldoff
      | 2  => s.switchDivision
      | 8  => s.swOut.getLsbD 0
      | 9  => s.swOut.getLsbD 1
      | 10 => s.swOut.getLsbD 2
      | _  => false) ∧
    (∃ v, ReadsAs s 0x0E v ∧
      v.toNat = (if s.motorMoving then 1 else 0) + 2 * directionNumber s.currentDirection) ∧
    (∃ v, ReadsAs s 0x11 v ∧
      v.toNat = phaseNumber s.seqState + (if s.seqRunning then 256 else 0)
        + (if s.seqState = .idle then 0 else 512))

/-- R170: the round count is independent of the rest: no operation but RINC, RDEC, RESET and the read of the
register itself behaves differently for another round count. -/
def Obligations.RoundCountReadByNoOtherOperation : Prop :=
  ∀ (i : Instr) (s t : State) (r : U16), i ≠ .rinc → i ≠ .rdec → i ≠ .reset → i ≠ .rdreg 0x0D →
    exec i s = .next t → exec i { s with roundCount := r } = .next { t with roundCount := r }

/-! ### The sequencer -/

/-- R190, R191: SEQINIT (word 0x20000000); and START (word 0x21000000), which begins the sequence and records
the time, or does nothing when it is running. -/
def Obligations.SeqinitAndStartResult : Prop :=
  decode 0x20000000 = .ok .seqinit ∧ decode 0x21000000 = .ok .start ∧
  ∀ s : State,
    exec .seqinit s = .next { s with seqState := .idle, seqRunning := false, phaseStart := 0 } ∧
    (s.seqRunning = true → exec .start s = .next s) ∧
    (s.seqRunning = false → exec .start s = .next { s with
      seqState := .setupSwitches
      seqRunning := true
      phaseStart := s.nowMs })

/-- R195, R198: the two switch phases. -/
def Obligations.SwitchPhases : Prop :=
  ∀ s : State, s.seqRunning = true →
    (s.seqState = .setupSwitches → exec .seqproc s = .next { s with
      switchCurrent := true
      switchHoldoff := false
      switchDivision := true
      swOut := 0b101
      trace := s.trace ++ [.switches true false true]
      seqState := .startMoving
      phaseStart := s.nowMs }) ∧
    (s.seqState = .adjustSwitches → exec .seqproc s = .next { s with
      switchCurrent := false
      switchDivision := false
      swOut := if s.switchHoldoff then 0b010 else 0b000
      trace := s.trace ++ [.switches false s.switchHoldoff false]
      seqState := .finalMove
      phaseStart := s.nowMs })

/-- R194, R196: StartMoving waits for 100 ms; then it programs `freq` and starts the clockwise continuous
move. With `freq = 0` it stops first and programs nothing, which the spec infers from R122 and R124. -/
def Obligations.StartMovingPhase : Prop :=
  ∀ s : State, s.seqRunning = true → s.seqState = .startMoving →
    (millisSince s.phaseStart s.nowMs < 100 → exec .seqproc s = .next s) ∧
    (100 ≤ millisSince s.phaseStart s.nowMs → s.freq ≠ 0 →
      ∃ q, RoundsTo s.params.roundTies 1000000 (min s.freq.toNat 1000) q ∧
        exec .seqproc s = .next { s with
          period := BitVec.ofNat 32 (q - 1)
          duty := BitVec.ofNat 32 (q / 2)
          countingEnabled := false
          targetPulses := 65535
          outCwEn := true
          tickIrqEn := false
          isMoving := true
          direction := .clockwise
          motorMoving := true
          currentDirection := .clockwise
          targetSteps := 65535
          currentSteps := s.currentPulses
          seqState := .monitorCurrent
          phaseStart := s.nowMs }) ∧
    (100 ≤ millisSince s.phaseStart s.nowMs → s.freq = 0 →
      exec .seqproc s = .next { s with
        countingEnabled := false
        targetPulses := 65535
        outCwEn := true
        outCcwEn := false
        tickIrqEn := false
        isMoving := true
        direction := .clockwise
        motorMoving := true
        currentDirection := .clockwise
        targetSteps := 65535
        currentSteps := s.currentPulses
        seqState := .monitorCurrent
        phaseStart := s.nowMs
        trace := if s.cbEn = true ∧ (s.params.cbEdgeOnly = false ∨ s.isMoving = true)
          then s.trace ++ [.callback] else s.trace })

/-- R197: MonitorCurrent advances exactly when all eight slots are strictly below the threshold, as integers.
-/
def Obligations.MonitorCurrentPhase : Prop :=
  ∀ s : State, s.seqRunning = true → s.seqState = .monitorCurrent →
    ((∀ (k : Nat) (hk : k < 8), s.buf[k].toInt < s.threshold.toInt) →
      exec .seqproc s = .next { s with seqState := .adjustSwitches, phaseStart := s.nowMs }) ∧
    ((∃ (k : Nat) (hk : k < 8), s.threshold.toInt ≤ s.buf[k].toInt) → exec .seqproc s = .next s)

/-- R194, R199: FinalMove stops on every poll; once 50 ms have passed it starts the clockwise move of 2000
pulses at `ORIGIN_FREQ` in the same step, and records no time. -/
def Obligations.FinalMovePhase : Prop :=
  ∀ s : State, s.seqRunning = true → s.seqState = .finalMove →
    (millisSince s.phaseStart s.nowMs < 50 → exec .seqproc s = exec .stop s) ∧
    (50 ≤ millisSince s.phaseStart s.nowMs →
      ∃ q, RoundsTo s.params.roundTies 1000000 s.params.originFreq.hz.toNat q ∧
        exec .seqproc s = .next { s with
          currentPulses := 0
          targetPulses := 2000
          countingEnabled := true
          period := BitVec.ofNat 32 (q - 1)
          duty := BitVec.ofNat 32 (q / 2)
          tickCnt := 0
          tickPending := false
          cmpPending := false
          outCwEn := true
          outCcwEn := false
          tickIrqEn := true
          isMoving := true
          direction := .clockwise
          motorMoving := true
          currentDirection := .clockwise
          targetSteps := 2000
          currentSteps := 0
          seqState := .complete
          trace := if s.cbEn = true ∧ (s.params.cbEdgeOnly = false ∨ s.isMoving = true)
            then s.trace ++ [.callback] else s.trace })

/-- R192, R200, R201: SEQPROC (word 0x22000000) when not running, in Complete, and in Idle or unrecognized
with the flag set. -/
def Obligations.CompleteAndIdlePhases : Prop :=
  decode 0x22000000 = .ok .seqproc ∧
  ∀ s : State,
    (s.seqRunning = false → exec .seqproc s = .next s) ∧
    (s.seqRunning = true → s.seqState = .complete → s.isMoving = true → exec .seqproc s = .next s) ∧
    (s.seqRunning = true → s.seqState = .complete → s.isMoving = false →
      exec .seqproc s = .next { s with seqState := .idle, seqRunning := false }) ∧
    (s.seqRunning = true → s.seqState = .idle ∨ s.seqState = .unrecognized →
      exec .seqproc s = .next { s with seqRunning := false })

/-- R37: the phase moves by one position in the fixed order, in START (from Idle) and SEQPROC only, and goes
to Idle in SEQINIT and RESET; from a state whose flag and phase agree (R40). -/
def Obligations.PhaseAdvancesInOrder : Prop :=
  ∀ (i : Instr) (s t : State), SequencerConsistent s → exec i s = .next t → t.seqState ≠ s.seqState →
    (i = .start ∧ s.seqState = .idle ∧ t.seqState = nextPhase s.seqState) ∨
    (i = .seqproc ∧ s.seqState ≠ .idle ∧ t.seqState = nextPhase s.seqState) ∨
    ((i = .seqinit ∨ i = .reset) ∧ t.seqState = .idle)

/-- R205: a sequence in MonitorCurrent stays there, running, under every operation but SEQINIT, RESET and a
SEQPROC whose test passes; START does nothing throughout. -/
def Obligations.StallPersists : Prop :=
  ∀ (i : Instr) (s t : State), s.seqState = .monitorCurrent → s.seqRunning = true →
    exec .start s = .next s ∧
    (exec i s = .next t → i ≠ .seqinit → i ≠ .reset →
      (i = .seqproc → ∃ (k : Nat) (hk : k < 8), s.threshold.toInt ≤ s.buf[k].toInt) →
        t.seqState = .monitorCurrent ∧ t.seqRunning = true)

/-- R171, R191, R194: after a START, `elapsed()` is the number of MSTICKs since, as long as it is below 2^32,
whatever the clock read at the START. -/
def Obligations.ElapsedCountsMilliseconds : Prop :=
  ∀ s : State, s.seqRunning = false → ∃ t, exec .start s = .next t ∧
    ∀ k, k < 4294967296 → ∃ u, execAll (ScriptLine.waitms k).expand t = .next u ∧ (elapsed u).toNat = k

/-! ### Reset -/

/-- R250, R251: RESET (word 0x80000000) leaves every register 0 and the trace empty, from every state, and the
parameters as they are. That no read output is left and that the stimuli still to come stay is the model's
choice (log entries 1 and 3). -/
def Obligations.ResetResult : Prop :=
  decode 0x80000000 = .ok .reset ∧
  ∀ s : State, exec .reset s = .next {
    direction := .stopped, targetPulses := 0, currentPulses := 0, isMoving := false
    countingEnabled := false, cbEn := false, period := 0, duty := 0, tickCnt := 0
    tickPending := false, cmpPending := false, tickIrqEn := false
    outCwEn := false, outCcwEn := false, freq := 0, threshold := 0
    switchCurrent := false, switchHoldoff := false, switchDivision := false, swOut := 0
    buf := Vector.replicate 8 0, bufIdx := 0, roundCount := 0
    motorMoving := false, targetSteps := 0, currentSteps := 0, currentDirection := .stopped
    seqState := .idle, seqRunning := false, phaseStart := 0, nowMs := 0
    trace := [], rdData := none, params := s.params, script := s.script }

/-- R252, the spec's own inference from R251, R104 and R131: right after reset the pulse clock's four
operations are refused and every other well-formed operation completes. -/
def Obligations.EnabledAfterReset : Prop :=
  ∀ i : Instr, i.wellFormed = true →
    ((∃ t, exec i State.reset = .next t) ↔ i ≠ .tmrupd ∧ i ≠ .tmrcmp ∧ i ≠ .refclk ∧ i ≠ .tick)

/-! ### Rules of the whole machine -/

/-- R40 to R44, the spec's own inferences, hold in the reset state. -/
def Obligations.ResetStateConsistent : Prop := Inv State.reset

/-- R40 to R44, the spec's own inferences, are kept by every step, from every state in which they hold. -/
def Obligations.StepKeepsConsistency : Prop :=
  ∀ s t : State, Inv s → step s = .next t → Inv t

/-- The spec's own inferences in R130, R43 and R40: in a consistent state the polled backstop never stops the
move, the tick's increment never wraps, and the accessor `is_running` reads as the running flag. -/
def Obligations.ConsistentStateConsequences : Prop :=
  ∀ s : State, Inv s →
    (s.isMoving = true → exec .drvproc s = .next { s with currentSteps := s.currentPulses }) ∧
    (∀ t, exec .tick s = .next t → t.currentPulses.toNat = s.currentPulses.toNat + 1) ∧
    (∀ v, ReadsAs s 0x11 v → v.getLsbD 9 = v.getLsbD 8)

/-- R22 to R31 and R104: which operations can change each driver and pulse-clock register. -/
def Obligations.DriverRegisterWriters : Prop :=
  ∀ (i : Instr) (s t : State), exec i s = .next t →
    (t.direction ≠ s.direction → canStop i = true ∨ initialises i = true) ∧
    (t.targetPulses ≠ s.targetPulses → canMove i = true ∨ canContinue i = true ∨ initialises i = true) ∧
    (t.currentPulses ≠ s.currentPulses →
      i = .tick ∨ i = .rstcnt ∨ canMove i = true ∨ initialises i = true) ∧
    (t.isMoving ≠ s.isMoving → canStop i = true ∨ initialises i = true) ∧
    (t.countingEnabled ≠ s.countingEnabled →
      canMove i = true ∨ canContinue i = true ∨ initialises i = true) ∧
    (t.cbEn ≠ s.cbEn → (∃ en, i = .setcb en) ∨ initialises i = true) ∧
    (t.period ≠ s.period ∨ t.duty ≠ s.duty → canProgram i = true ∨ initialises i = true) ∧
    (t.tickCnt ≠ s.tickCnt → i = .tmrupd ∨ i = .refclk ∨ canMove i = true ∨ initialises i = true) ∧
    (t.tickPending ≠ s.tickPending →
      i = .tmrupd ∨ i = .refclk ∨ i = .tick ∨ canMove i = true ∨ initialises i = true) ∧
    (t.cmpPending ≠ s.cmpPending → i = .tmrcmp ∨ i = .refclk ∨ canMove i = true ∨ initialises i = true) ∧
    (t.tickIrqEn ≠ s.tickIrqEn → canStop i = true ∨ initialises i = true) ∧
    (t.outCwEn ≠ s.outCwEn ∨ t.outCcwEn ≠ s.outCcwEn → canStop i = true ∨ initialises i = true)

/-- R32 to R35: which operations can change each register of MotionState. -/
def Obligations.MotionRegisterWriters : Prop :=
  ∀ (i : Instr) (s t : State), exec i s = .next t →
    (t.freq ≠ s.freq → (∃ hz, i = .wrfreq hz) ∨ i = .reset) ∧
    (t.threshold ≠ s.threshold → (∃ v, i = .wrthr v) ∨ i = .reset) ∧
    (t.switchCurrent ≠ s.switchCurrent → (∃ b, i = .wrsw .current b) ∨ i = .seqproc ∨ i = .reset) ∧
    (t.switchHoldoff ≠ s.switchHoldoff → (∃ b, i = .wrsw .holdoff b) ∨ i = .seqproc ∨ i = .reset) ∧
    (t.switchDivision ≠ s.switchDivision → (∃ b, i = .wrsw .division b) ∨ i = .seqproc ∨ i = .reset) ∧
    (t.swOut ≠ s.swOut → i = .swsync ∨ i = .seqproc ∨ i = .reset) ∧
    (t.buf ≠ s.buf ∨ t.bufIdx ≠ s.bufIdx → (∃ v, i = .push v) ∨ i = .reset) ∧
    (t.roundCount ≠ s.roundCount → i = .rinc ∨ i = .rdec ∨ i = .reset) ∧
    (t.motorMoving ≠ s.motorMoving ∨ t.targetSteps ≠ s.targetSteps ∨ t.currentSteps ≠ s.currentSteps ∨
      t.currentDirection ≠ s.currentDirection → canStop i = true ∨ initialises i = true) ∧
    (t.seqState ≠ s.seqState ∨ t.seqRunning ≠ s.seqRunning ∨ t.phaseStart ≠ s.phaseStart →
      i = .start ∨ i = .seqproc ∨ i = .seqinit ∨ i = .reset) ∧
    (t.nowMs ≠ s.nowMs → i = .mstick ∨ i = .reset)

/-- R16, R121, R265: an operation other than RESET only appends to the trace, at most one callback among what
it appends, and none unless a handler is registered and the operation can execute `Stop()`. -/
def Obligations.TraceGrowsByAtMostOneCallback : Prop :=
  ∀ (i : Instr) (s t : State), i ≠ .reset → exec i s = .next t →
    ∃ l, t.trace = s.trace ++ l ∧ callbacks l ≤ 1 ∧
      (callbacks l = 1 → s.cbEn = true ∧ canStop i = true)

/-- R105: no rule reads `cmp_pending`: with the flag changed, every operation but the read of DRV_STATUS does
the same to everything else. -/
def Obligations.CompareFlagReadByNoRule : Prop :=
  ∀ (i : Instr) (s t : State) (b : Bool), i ≠ .rdreg 0x03 → exec i s = .next t →
    ∃ c, exec i { s with cmpPending := b } = .next { t with cmpPending := c }
end

