-- ==== Sys2Proof/Laws/Decode.lean ====
section
/-! SUPPORT. The fields of a stimulus word: packing and reading are inverse, and what the formats accept. -/

namespace Sys2Proof

/-- The bits of a packed word: `imm`, then `a`, then `op`. -/
theorem getLsbD_packWord (op a : Byte) (imm : U16) (j : Nat) :
    (packWord op a imm).getLsbD j =
      if j < 16 then imm.getLsbD j
      else if j - 16 < 8 then a.getLsbD (j - 16) else op.getLsbD (j - 16 - 8) := by
  have h : (packWord op a imm).getLsbD j =
      if j < 16 then imm.getLsbD j else (op ++ a).getLsbD (j - 16) :=
    BitVec.getLsbD_append (x := op ++ a) (y := imm)
  rw [h, BitVec.getLsbD_append]

@[simp] theorem opField_packWord (op a : Byte) (imm : U16) : opField (packWord op a imm) = op := by
  unfold opField
  ext i hi
  rw [BitVec.getElem_extractLsb', getLsbD_packWord, if_neg (by omega), if_neg (by omega),
    show 24 + i - 16 - 8 = i by omega, BitVec.getLsbD_eq_getElem hi]

@[simp] theorem aField_packWord (op a : Byte) (imm : U16) : aField (packWord op a imm) = a := by
  unfold aField
  ext i hi
  rw [BitVec.getElem_extractLsb', getLsbD_packWord, if_neg (by omega), if_pos (by omega),
    show 16 + i - 16 = i by omega, BitVec.getLsbD_eq_getElem hi]

@[simp] theorem immField_packWord (op a : Byte) (imm : U16) : immField (packWord op a imm) = imm := by
  unfold immField
  ext i hi
  rw [BitVec.getElem_extractLsb', getLsbD_packWord, if_pos (by omega), Nat.zero_add,
    BitVec.getLsbD_eq_getElem hi]

/-- A word is the packing of its three fields. -/
theorem packWord_fields (w : U32) : packWord (opField w) (aField w) (immField w) = w := by
  apply BitVec.eq_of_getLsbD_eq
  intro i hi
  rw [getLsbD_packWord]
  unfold opField aField immField
  simp only [BitVec.getLsbD_extractLsb']
  split
  · simp [*]
  · split
    · rw [show 16 + (i - 16) = i by omega]; simp [*]
    · rw [show 24 + (i - 16 - 8) = i by omega]; simp; omega

/-- Two words with the same fields are the same word. -/
theorem eq_of_fields {v w : U32} (ho : opField v = opField w) (ha : aField v = aField w)
    (hi : immField v = immField w) : v = w := by
  rw [← packWord_fields v, ← packWord_fields w, ho, ha, hi]

/-- A word of the form `op << 24 | imm`, as the spec writes the words of format I, is the packing of its fields. -/
theorem or_operand_eq_packWord (op : Byte) (v : U16) :
    (op.setWidth 32 <<< 24 ||| v.setWidth 32 : U32) = packWord op 0 v := by
  apply BitVec.eq_of_getLsbD_eq
  intro i hi
  rw [getLsbD_packWord, BitVec.getLsbD_or, BitVec.getLsbD_shiftLeft, BitVec.getLsbD_setWidth,
    BitVec.getLsbD_setWidth]
  by_cases h1 : i < 16
  · simp [h1, hi]
    omega
  · by_cases h2 : i < 24
    · have h3 : i - 16 < 8 := by omega
      simp [h1, h2, h3]
      intro _
      exact BitVec.getLsbD_of_ge _ _ (by omega)
    · have h3 : ¬ i - 16 < 8 := by omega
      have h4 : v.getLsbD i = false := BitVec.getLsbD_of_ge _ _ (by omega)
      have h5 : i - 24 < 32 := by omega
      simp [h1, h2, h3, hi, h4, h5, show i - 16 - 8 = i - 24 by omega]

/-- A format check accepts exactly when its condition holds. -/
theorem accepted_ok {p : Prop} [Decidable p] {i j : Instr} {e : DecodeError} :
    (if p then (.ok i : Except DecodeError Instr) else .error e) = .ok j ↔ p ∧ j = i := by
  by_cases h : p
  · rw [if_pos h]
    exact ⟨fun x => ⟨h, (Except.ok.inj x).symm⟩, fun x => congrArg _ x.2.symm⟩
  · rw [if_neg h]
    exact ⟨nofun, fun x => absurd x.1 h⟩

/-- Format N accepts exactly zero fields. -/
theorem formatN_ok {a : Byte} {imm : U16} {i j : Instr} :
    formatN a imm i = .ok j ↔ (a = 0 ∧ imm = 0) ∧ j = i := by
  unfold formatN
  exact accepted_ok

/-- Format I accepts exactly a zero `a`. -/
theorem formatI_ok {a : Byte} {i j : Instr} : formatI a i = .ok j ↔ a = 0 ∧ j = i := by
  unfold formatI
  exact accepted_ok

/-- Format A accepts exactly an `a` of `k` bits and a zero `imm`. -/
theorem formatA_ok {k : Nat} {a : Byte} {imm : U16} {i j : Instr} :
    formatA k a imm i = .ok j ↔ (a >>> k = 0 ∧ imm = 0) ∧ j = i := by
  unfold formatA
  exact accepted_ok

/-- Format AI accepts exactly an `a` of `k` bits and an `imm` of `l` bits. -/
theorem formatAI_ok {k l : Nat} {a : Byte} {imm : U16} {i j : Instr} :
    formatAI k l a imm i = .ok j ↔ (a >>> k = 0 ∧ imm >>> l = 0) ∧ j = i := by
  unfold formatAI
  exact accepted_ok

/-- Two bits of direction survive the way there and back. -/
@[simp] theorem Direction.ofBits_bits (d : Direction) : Direction.ofBits d.bits = d := by cases d <;> rfl

/-- Every two bits name one direction. -/
theorem Direction.bits_ofBits : ∀ b : BitVec 2, (Direction.ofBits b).bits = b := by decide

/-- A switch name survives the way there and back. -/
@[simp] theorem SwitchName.ofBits_bits (n : SwitchName) : SwitchName.ofBits n.bits = some n := by
  cases n <;> rfl

end Sys2Proof
end

