-- ==== Sys2Proof/Laws/State.lean ====
section
/-! SUPPORT. What each shared update does to each field of the state: one lemma per field per update,
so that no proof unfolds a record update. -/

namespace Sys2Proof.Machine

open Sys2Proof

variable (s : State)

/-! ### `emit` -/

@[simp] theorem emit_direction (e : Event) : (emit e s).direction = s.direction := rfl
@[simp] theorem emit_targetPulses (e : Event) : (emit e s).targetPulses = s.targetPulses := rfl
@[simp] theorem emit_currentPulses (e : Event) : (emit e s).currentPulses = s.currentPulses := rfl
@[simp] theorem emit_isMoving (e : Event) : (emit e s).isMoving = s.isMoving := rfl
@[simp] theorem emit_countingEnabled (e : Event) : (emit e s).countingEnabled = s.countingEnabled := rfl
@[simp] theorem emit_cbEn (e : Event) : (emit e s).cbEn = s.cbEn := rfl
@[simp] theorem emit_period (e : Event) : (emit e s).period = s.period := rfl
@[simp] theorem emit_duty (e : Event) : (emit e s).duty = s.duty := rfl
@[simp] theorem emit_tickCnt (e : Event) : (emit e s).tickCnt = s.tickCnt := rfl
@[simp] theorem emit_tickPending (e : Event) : (emit e s).tickPending = s.tickPending := rfl
@[simp] theorem emit_cmpPending (e : Event) : (emit e s).cmpPending = s.cmpPending := rfl
@[simp] theorem emit_tickIrqEn (e : Event) : (emit e s).tickIrqEn = s.tickIrqEn := rfl
@[simp] theorem emit_outCwEn (e : Event) : (emit e s).outCwEn = s.outCwEn := rfl
@[simp] theorem emit_outCcwEn (e : Event) : (emit e s).outCcwEn = s.outCcwEn := rfl
@[simp] theorem emit_freq (e : Event) : (emit e s).freq = s.freq := rfl
@[simp] theorem emit_threshold (e : Event) : (emit e s).threshold = s.threshold := rfl
@[simp] theorem emit_switchCurrent (e : Event) : (emit e s).switchCurrent = s.switchCurrent := rfl
@[simp] theorem emit_switchHoldoff (e : Event) : (emit e s).switchHoldoff = s.switchHoldoff := rfl
@[simp] theorem emit_switchDivision (e : Event) : (emit e s).switchDivision = s.switchDivision := rfl
@[simp] theorem emit_swOut (e : Event) : (emit e s).swOut = s.swOut := rfl
@[simp] theorem emit_buf (e : Event) : (emit e s).buf = s.buf := rfl
@[simp] theorem emit_bufIdx (e : Event) : (emit e s).bufIdx = s.bufIdx := rfl
@[simp] theorem emit_roundCount (e : Event) : (emit e s).roundCount = s.roundCount := rfl
@[simp] theorem emit_motorMoving (e : Event) : (emit e s).motorMoving = s.motorMoving := rfl
@[simp] theorem emit_targetSteps (e : Event) : (emit e s).targetSteps = s.targetSteps := rfl
@[simp] theorem emit_currentSteps (e : Event) : (emit e s).currentSteps = s.currentSteps := rfl
@[simp] theorem emit_currentDirection (e : Event) : (emit e s).currentDirection = s.currentDirection := rfl
@[simp] theorem emit_seqState (e : Event) : (emit e s).seqState = s.seqState := rfl
@[simp] theorem emit_seqRunning (e : Event) : (emit e s).seqRunning = s.seqRunning := rfl
@[simp] theorem emit_phaseStart (e : Event) : (emit e s).phaseStart = s.phaseStart := rfl
@[simp] theorem emit_nowMs (e : Event) : (emit e s).nowMs = s.nowMs := rfl
@[simp] theorem emit_trace (e : Event) : (emit e s).trace = s.trace ++ [e] := rfl
@[simp] theorem emit_rdData (e : Event) : (emit e s).rdData = s.rdData := rfl
@[simp] theorem emit_params (e : Event) : (emit e s).params = s.params := rfl
@[simp] theorem emit_script (e : Event) : (emit e s).script = s.script := rfl

/-! ### `stop` -/

@[simp] theorem stop_direction : (stop s).direction = .stopped := rfl
@[simp] theorem stop_targetPulses : (stop s).targetPulses = s.targetPulses := rfl
@[simp] theorem stop_currentPulses : (stop s).currentPulses = s.currentPulses := rfl
@[simp] theorem stop_isMoving : (stop s).isMoving = false := rfl
@[simp] theorem stop_countingEnabled : (stop s).countingEnabled = s.countingEnabled := rfl
@[simp] theorem stop_cbEn : (stop s).cbEn = s.cbEn := rfl
@[simp] theorem stop_period : (stop s).period = s.period := rfl
@[simp] theorem stop_duty : (stop s).duty = s.duty := rfl
@[simp] theorem stop_tickCnt : (stop s).tickCnt = s.tickCnt := rfl
@[simp] theorem stop_tickPending : (stop s).tickPending = s.tickPending := rfl
@[simp] theorem stop_cmpPending : (stop s).cmpPending = s.cmpPending := rfl
@[simp] theorem stop_tickIrqEn : (stop s).tickIrqEn = false := rfl
@[simp] theorem stop_outCwEn : (stop s).outCwEn = false := rfl
@[simp] theorem stop_outCcwEn : (stop s).outCcwEn = false := rfl
@[simp] theorem stop_freq : (stop s).freq = s.freq := rfl
@[simp] theorem stop_threshold : (stop s).threshold = s.threshold := rfl
@[simp] theorem stop_switchCurrent : (stop s).switchCurrent = s.switchCurrent := rfl
@[simp] theorem stop_switchHoldoff : (stop s).switchHoldoff = s.switchHoldoff := rfl
@[simp] theorem stop_switchDivision : (stop s).switchDivision = s.switchDivision := rfl
@[simp] theorem stop_swOut : (stop s).swOut = s.swOut := rfl
@[simp] theorem stop_buf : (stop s).buf = s.buf := rfl
@[simp] theorem stop_bufIdx : (stop s).bufIdx = s.bufIdx := rfl
@[simp] theorem stop_roundCount : (stop s).roundCount = s.roundCount := rfl
@[simp] theorem stop_motorMoving : (stop s).motorMoving = false := rfl
@[simp] theorem stop_targetSteps : (stop s).targetSteps = 0 := rfl
@[simp] theorem stop_currentSteps : (stop s).currentSteps = 0 := rfl
@[simp] theorem stop_currentDirection : (stop s).currentDirection = .stopped := rfl
@[simp] theorem stop_seqState : (stop s).seqState = s.seqState := rfl
@[simp] theorem stop_seqRunning : (stop s).seqRunning = s.seqRunning := rfl
@[simp] theorem stop_phaseStart : (stop s).phaseStart = s.phaseStart := rfl
@[simp] theorem stop_nowMs : (stop s).nowMs = s.nowMs := rfl
@[simp] theorem stop_trace : (stop s).trace = s.trace ++ stopEvents s := rfl
@[simp] theorem stop_rdData : (stop s).rdData = s.rdData := rfl
@[simp] theorem stop_params : (stop s).params = s.params := rfl
@[simp] theorem stop_script : (stop s).script = s.script := rfl

/-! ### `program` -/

@[simp] theorem program_direction (f : U16) : (program f s).direction = s.direction := rfl
@[simp] theorem program_targetPulses (f : U16) : (program f s).targetPulses = s.targetPulses := rfl
@[simp] theorem program_currentPulses (f : U16) : (program f s).currentPulses = s.currentPulses := rfl
@[simp] theorem program_isMoving (f : U16) : (program f s).isMoving = s.isMoving := rfl
@[simp] theorem program_countingEnabled (f : U16) : (program f s).countingEnabled = s.countingEnabled := rfl
@[simp] theorem program_cbEn (f : U16) : (program f s).cbEn = s.cbEn := rfl
@[simp] theorem program_period (f : U16) : (program f s).period = periodOf s.params.roundTies f := rfl
@[simp] theorem program_duty (f : U16) : (program f s).duty = dutyOf (periodOf s.params.roundTies f) := rfl
@[simp] theorem program_tickCnt (f : U16) : (program f s).tickCnt = s.tickCnt := rfl
@[simp] theorem program_tickPending (f : U16) : (program f s).tickPending = s.tickPending := rfl
@[simp] theorem program_cmpPending (f : U16) : (program f s).cmpPending = s.cmpPending := rfl
@[simp] theorem program_tickIrqEn (f : U16) : (program f s).tickIrqEn = s.tickIrqEn := rfl
@[simp] theorem program_outCwEn (f : U16) : (program f s).outCwEn = s.outCwEn := rfl
@[simp] theorem program_outCcwEn (f : U16) : (program f s).outCcwEn = s.outCcwEn := rfl
@[simp] theorem program_freq (f : U16) : (program f s).freq = s.freq := rfl
@[simp] theorem program_threshold (f : U16) : (program f s).threshold = s.threshold := rfl
@[simp] theorem program_switchCurrent (f : U16) : (program f s).switchCurrent = s.switchCurrent := rfl
@[simp] theorem program_switchHoldoff (f : U16) : (program f s).switchHoldoff = s.switchHoldoff := rfl
@[simp] theorem program_switchDivision (f : U16) : (program f s).switchDivision = s.switchDivision := rfl
@[simp] theorem program_swOut (f : U16) : (program f s).swOut = s.swOut := rfl
@[simp] theorem program_buf (f : U16) : (program f s).buf = s.buf := rfl
@[simp] theorem program_bufIdx (f : U16) : (program f s).bufIdx = s.bufIdx := rfl
@[simp] theorem program_roundCount (f : U16) : (program f s).roundCount = s.roundCount := rfl
@[simp] theorem program_motorMoving (f : U16) : (program f s).motorMoving = s.motorMoving := rfl
@[simp] theorem program_targetSteps (f : U16) : (program f s).targetSteps = s.targetSteps := rfl
@[simp] theorem program_currentSteps (f : U16) : (program f s).currentSteps = s.currentSteps := rfl
@[simp] theorem program_currentDirection (f : U16) : (program f s).currentDirection = s.currentDirection := rfl
@[simp] theorem program_seqState (f : U16) : (program f s).seqState = s.seqState := rfl
@[simp] theorem program_seqRunning (f : U16) : (program f s).seqRunning = s.seqRunning := rfl
@[simp] theorem program_phaseStart (f : U16) : (program f s).phaseStart = s.phaseStart := rfl
@[simp] theorem program_nowMs (f : U16) : (program f s).nowMs = s.nowMs := rfl
@[simp] theorem program_trace (f : U16) : (program f s).trace = s.trace := rfl
@[simp] theorem program_rdData (f : U16) : (program f s).rdData = s.rdData := rfl
@[simp] theorem program_params (f : U16) : (program f s).params = s.params := rfl
@[simp] theorem program_script (f : U16) : (program f s).script = s.script := rfl

/-! ### `moveCounts` -/

@[simp] theorem moveCounts_direction (n : U16) : (moveCounts n s).direction = s.direction := rfl
@[simp] theorem moveCounts_targetPulses (n : U16) : (moveCounts n s).targetPulses = n := rfl
@[simp] theorem moveCounts_currentPulses (n : U16) : (moveCounts n s).currentPulses = 0 := rfl
@[simp] theorem moveCounts_isMoving (n : U16) : (moveCounts n s).isMoving = s.isMoving := rfl
@[simp] theorem moveCounts_countingEnabled (n : U16) : (moveCounts n s).countingEnabled = true := rfl
@[simp] theorem moveCounts_cbEn (n : U16) : (moveCounts n s).cbEn = s.cbEn := rfl
@[simp] theorem moveCounts_period (n : U16) : (moveCounts n s).period = s.period := rfl
@[simp] theorem moveCounts_duty (n : U16) : (moveCounts n s).duty = s.duty := rfl
@[simp] theorem moveCounts_tickCnt (n : U16) : (moveCounts n s).tickCnt = s.tickCnt := rfl
@[simp] theorem moveCounts_tickPending (n : U16) : (moveCounts n s).tickPending = s.tickPending := rfl
@[simp] theorem moveCounts_cmpPending (n : U16) : (moveCounts n s).cmpPending = s.cmpPending := rfl
@[simp] theorem moveCounts_tickIrqEn (n : U16) : (moveCounts n s).tickIrqEn = s.tickIrqEn := rfl
@[simp] theorem moveCounts_outCwEn (n : U16) : (moveCounts n s).outCwEn = s.outCwEn := rfl
@[simp] theorem moveCounts_outCcwEn (n : U16) : (moveCounts n s).outCcwEn = s.outCcwEn := rfl
@[simp] theorem moveCounts_freq (n : U16) : (moveCounts n s).freq = s.freq := rfl
@[simp] theorem moveCounts_threshold (n : U16) : (moveCounts n s).threshold = s.threshold := rfl
@[simp] theorem moveCounts_switchCurrent (n : U16) : (moveCounts n s).switchCurrent = s.switchCurrent := rfl
@[simp] theorem moveCounts_switchHoldoff (n : U16) : (moveCounts n s).switchHoldoff = s.switchHoldoff := rfl
@[simp] theorem moveCounts_switchDivision (n : U16) : (moveCounts n s).switchDivision = s.switchDivision := rfl
@[simp] theorem moveCounts_swOut (n : U16) : (moveCounts n s).swOut = s.swOut := rfl
@[simp] theorem moveCounts_buf (n : U16) : (moveCounts n s).buf = s.buf := rfl
@[simp] theorem moveCounts_bufIdx (n : U16) : (moveCounts n s).bufIdx = s.bufIdx := rfl
@[simp] theorem moveCounts_roundCount (n : U16) : (moveCounts n s).roundCount = s.roundCount := rfl
@[simp] theorem moveCounts_motorMoving (n : U16) : (moveCounts n s).motorMoving = s.motorMoving := rfl
@[simp] theorem moveCounts_targetSteps (n : U16) : (moveCounts n s).targetSteps = s.targetSteps := rfl
@[simp] theorem moveCounts_currentSteps (n : U16) : (moveCounts n s).currentSteps = s.currentSteps := rfl
@[simp] theorem moveCounts_currentDirection (n : U16) : (moveCounts n s).currentDirection = s.currentDirection := rfl
@[simp] theorem moveCounts_seqState (n : U16) : (moveCounts n s).seqState = s.seqState := rfl
@[simp] theorem moveCounts_seqRunning (n : U16) : (moveCounts n s).seqRunning = s.seqRunning := rfl
@[simp] theorem moveCounts_phaseStart (n : U16) : (moveCounts n s).phaseStart = s.phaseStart := rfl
@[simp] theorem moveCounts_nowMs (n : U16) : (moveCounts n s).nowMs = s.nowMs := rfl
@[simp] theorem moveCounts_trace (n : U16) : (moveCounts n s).trace = s.trace := rfl
@[simp] theorem moveCounts_rdData (n : U16) : (moveCounts n s).rdData = s.rdData := rfl
@[simp] theorem moveCounts_params (n : U16) : (moveCounts n s).params = s.params := rfl
@[simp] theorem moveCounts_script (n : U16) : (moveCounts n s).script = s.script := rfl

/-! ### `moveStart` -/

@[simp] theorem moveStart_direction (d : Direction) (n : U16) : (moveStart d n s).direction = d := rfl
@[simp] theorem moveStart_targetPulses (d : Direction) (n : U16) : (moveStart d n s).targetPulses = s.targetPulses := rfl
@[simp] theorem moveStart_currentPulses (d : Direction) (n : U16) : (moveStart d n s).currentPulses = s.currentPulses := rfl
@[simp] theorem moveStart_isMoving (d : Direction) (n : U16) : (moveStart d n s).isMoving = true := rfl
@[simp] theorem moveStart_countingEnabled (d : Direction) (n : U16) : (moveStart d n s).countingEnabled = s.countingEnabled := rfl
@[simp] theorem moveStart_cbEn (d : Direction) (n : U16) : (moveStart d n s).cbEn = s.cbEn := rfl
@[simp] theorem moveStart_period (d : Direction) (n : U16) : (moveStart d n s).period = s.period := rfl
@[simp] theorem moveStart_duty (d : Direction) (n : U16) : (moveStart d n s).duty = s.duty := rfl
@[simp] theorem moveStart_tickCnt (d : Direction) (n : U16) : (moveStart d n s).tickCnt = 0 := rfl
@[simp] theorem moveStart_tickPending (d : Direction) (n : U16) : (moveStart d n s).tickPending = false := rfl
@[simp] theorem moveStart_cmpPending (d : Direction) (n : U16) : (moveStart d n s).cmpPending = false := rfl
@[simp] theorem moveStart_tickIrqEn (d : Direction) (n : U16) : (moveStart d n s).tickIrqEn = true := rfl
@[simp] theorem moveStart_outCwEn (d : Direction) (n : U16) : (moveStart d n s).outCwEn = decide (d = .clockwise) := rfl
@[simp] theorem moveStart_outCcwEn (d : Direction) (n : U16) : (moveStart d n s).outCcwEn = decide (d = .counterClockwise) := rfl
@[simp] theorem moveStart_freq (d : Direction) (n : U16) : (moveStart d n s).freq = s.freq := rfl
@[simp] theorem moveStart_threshold (d : Direction) (n : U16) : (moveStart d n s).threshold = s.threshold := rfl
@[simp] theorem moveStart_switchCurrent (d : Direction) (n : U16) : (moveStart d n s).switchCurrent = s.switchCurrent := rfl
@[simp] theorem moveStart_switchHoldoff (d : Direction) (n : U16) : (moveStart d n s).switchHoldoff = s.switchHoldoff := rfl
@[simp] theorem moveStart_switchDivision (d : Direction) (n : U16) : (moveStart d n s).switchDivision = s.switchDivision := rfl
@[simp] theorem moveStart_swOut (d : Direction) (n : U16) : (moveStart d n s).swOut = s.swOut := rfl
@[simp] theorem moveStart_buf (d : Direction) (n : U16) : (moveStart d n s).buf = s.buf := rfl
@[simp] theorem moveStart_bufIdx (d : Direction) (n : U16) : (moveStart d n s).bufIdx = s.bufIdx := rfl
@[simp] theorem moveStart_roundCount (d : Direction) (n : U16) : (moveStart d n s).roundCount = s.roundCount := rfl
@[simp] theorem moveStart_motorMoving (d : Direction) (n : U16) : (moveStart d n s).motorMoving = true := rfl
@[simp] theorem moveStart_targetSteps (d : Direction) (n : U16) : (moveStart d n s).targetSteps = n := rfl
@[simp] theorem moveStart_currentSteps (d : Direction) (n : U16) : (moveStart d n s).currentSteps = 0 := rfl
@[simp] theorem moveStart_currentDirection (d : Direction) (n : U16) : (moveStart d n s).currentDirection = d := rfl
@[simp] theorem moveStart_seqState (d : Direction) (n : U16) : (moveStart d n s).seqState = s.seqState := rfl
@[simp] theorem moveStart_seqRunning (d : Direction) (n : U16) : (moveStart d n s).seqRunning = s.seqRunning := rfl
@[simp] theorem moveStart_phaseStart (d : Direction) (n : U16) : (moveStart d n s).phaseStart = s.phaseStart := rfl
@[simp] theorem moveStart_nowMs (d : Direction) (n : U16) : (moveStart d n s).nowMs = s.nowMs := rfl
@[simp] theorem moveStart_trace (d : Direction) (n : U16) : (moveStart d n s).trace = s.trace := rfl
@[simp] theorem moveStart_rdData (d : Direction) (n : U16) : (moveStart d n s).rdData = s.rdData := rfl
@[simp] theorem moveStart_params (d : Direction) (n : U16) : (moveStart d n s).params = s.params := rfl
@[simp] theorem moveStart_script (d : Direction) (n : U16) : (moveStart d n s).script = s.script := rfl

/-! ### `continueStart` -/

@[simp] theorem continueStart_direction (d : Direction) : (continueStart d s).direction = d := rfl
@[simp] theorem continueStart_targetPulses (d : Direction) : (continueStart d s).targetPulses = Config.noLimit := rfl
@[simp] theorem continueStart_currentPulses (d : Direction) : (continueStart d s).currentPulses = s.currentPulses := rfl
@[simp] theorem continueStart_isMoving (d : Direction) : (continueStart d s).isMoving = true := rfl
@[simp] theorem continueStart_countingEnabled (d : Direction) : (continueStart d s).countingEnabled = false := rfl
@[simp] theorem continueStart_cbEn (d : Direction) : (continueStart d s).cbEn = s.cbEn := rfl
@[simp] theorem continueStart_period (d : Direction) : (continueStart d s).period = s.period := rfl
@[simp] theorem continueStart_duty (d : Direction) : (continueStart d s).duty = s.duty := rfl
@[simp] theorem continueStart_tickCnt (d : Direction) : (continueStart d s).tickCnt = s.tickCnt := rfl
@[simp] theorem continueStart_tickPending (d : Direction) : (continueStart d s).tickPending = s.tickPending := rfl
@[simp] theorem continueStart_cmpPending (d : Direction) : (continueStart d s).cmpPending = s.cmpPending := rfl
@[simp] theorem continueStart_tickIrqEn (d : Direction) : (continueStart d s).tickIrqEn = false := rfl
@[simp] theorem continueStart_outCwEn (d : Direction) : (continueStart d s).outCwEn = (s.outCwEn || decide (d = .clockwise)) := rfl
@[simp] theorem continueStart_outCcwEn (d : Direction) : (continueStart d s).outCcwEn = (s.outCcwEn || decide (d = .counterClockwise)) := rfl
@[simp] theorem continueStart_freq (d : Direction) : (continueStart d s).freq = s.freq := rfl
@[simp] theorem continueStart_threshold (d : Direction) : (continueStart d s).threshold = s.threshold := rfl
@[simp] theorem continueStart_switchCurrent (d : Direction) : (continueStart d s).switchCurrent = s.switchCurrent := rfl
@[simp] theorem continueStart_switchHoldoff (d : Direction) : (continueStart d s).switchHoldoff = s.switchHoldoff := rfl
@[simp] theorem continueStart_switchDivision (d : Direction) : (continueStart d s).switchDivision = s.switchDivision := rfl
@[simp] theorem continueStart_swOut (d : Direction) : (continueStart d s).swOut = s.swOut := rfl
@[simp] theorem continueStart_buf (d : Direction) : (continueStart d s).buf = s.buf := rfl
@[simp] theorem continueStart_bufIdx (d : Direction) : (continueStart d s).bufIdx = s.bufIdx := rfl
@[simp] theorem continueStart_roundCount (d : Direction) : (continueStart d s).roundCount = s.roundCount := rfl
@[simp] theorem continueStart_motorMoving (d : Direction) : (continueStart d s).motorMoving = true := rfl
@[simp] theorem continueStart_targetSteps (d : Direction) : (continueStart d s).targetSteps = Config.noLimit := rfl
@[simp] theorem continueStart_currentSteps (d : Direction) : (continueStart d s).currentSteps = s.currentPulses := rfl
@[simp] theorem continueStart_currentDirection (d : Direction) : (continueStart d s).currentDirection = d := rfl
@[simp] theorem continueStart_seqState (d : Direction) : (continueStart d s).seqState = s.seqState := rfl
@[simp] theorem continueStart_seqRunning (d : Direction) : (continueStart d s).seqRunning = s.seqRunning := rfl
@[simp] theorem continueStart_phaseStart (d : Direction) : (continueStart d s).phaseStart = s.phaseStart := rfl
@[simp] theorem continueStart_nowMs (d : Direction) : (continueStart d s).nowMs = s.nowMs := rfl
@[simp] theorem continueStart_trace (d : Direction) : (continueStart d s).trace = s.trace := rfl
@[simp] theorem continueStart_rdData (d : Direction) : (continueStart d s).rdData = s.rdData := rfl
@[simp] theorem continueStart_params (d : Direction) : (continueStart d s).params = s.params := rfl
@[simp] theorem continueStart_script (d : Direction) : (continueStart d s).script = s.script := rfl

/-! ### `periodElapsed` -/

@[simp] theorem periodElapsed_direction : (periodElapsed s).direction = s.direction := rfl
@[simp] theorem periodElapsed_targetPulses : (periodElapsed s).targetPulses = s.targetPulses := rfl
@[simp] theorem periodElapsed_currentPulses : (periodElapsed s).currentPulses = s.currentPulses := rfl
@[simp] theorem periodElapsed_isMoving : (periodElapsed s).isMoving = s.isMoving := rfl
@[simp] theorem periodElapsed_countingEnabled : (periodElapsed s).countingEnabled = s.countingEnabled := rfl
@[simp] theorem periodElapsed_cbEn : (periodElapsed s).cbEn = s.cbEn := rfl
@[simp] theorem periodElapsed_period : (periodElapsed s).period = s.period := rfl
@[simp] theorem periodElapsed_duty : (periodElapsed s).duty = s.duty := rfl
@[simp] theorem periodElapsed_tickCnt : (periodElapsed s).tickCnt = 0 := rfl
@[simp] theorem periodElapsed_tickPending : (periodElapsed s).tickPending = true := rfl
@[simp] theorem periodElapsed_cmpPending : (periodElapsed s).cmpPending = s.cmpPending := rfl
@[simp] theorem periodElapsed_tickIrqEn : (periodElapsed s).tickIrqEn = s.tickIrqEn := rfl
@[simp] theorem periodElapsed_outCwEn : (periodElapsed s).outCwEn = s.outCwEn := rfl
@[simp] theorem periodElapsed_outCcwEn : (periodElapsed s).outCcwEn = s.outCcwEn := rfl
@[simp] theorem periodElapsed_freq : (periodElapsed s).freq = s.freq := rfl
@[simp] theorem periodElapsed_threshold : (periodElapsed s).threshold = s.threshold := rfl
@[simp] theorem periodElapsed_switchCurrent : (periodElapsed s).switchCurrent = s.switchCurrent := rfl
@[simp] theorem periodElapsed_switchHoldoff : (periodElapsed s).switchHoldoff = s.switchHoldoff := rfl
@[simp] theorem periodElapsed_switchDivision : (periodElapsed s).switchDivision = s.switchDivision := rfl
@[simp] theorem periodElapsed_swOut : (periodElapsed s).swOut = s.swOut := rfl
@[simp] theorem periodElapsed_buf : (periodElapsed s).buf = s.buf := rfl
@[simp] theorem periodElapsed_bufIdx : (periodElapsed s).bufIdx = s.bufIdx := rfl
@[simp] theorem periodElapsed_roundCount : (periodElapsed s).roundCount = s.roundCount := rfl
@[simp] theorem periodElapsed_motorMoving : (periodElapsed s).motorMoving = s.motorMoving := rfl
@[simp] theorem periodElapsed_targetSteps : (periodElapsed s).targetSteps = s.targetSteps := rfl
@[simp] theorem periodElapsed_currentSteps : (periodElapsed s).currentSteps = s.currentSteps := rfl
@[simp] theorem periodElapsed_currentDirection : (periodElapsed s).currentDirection = s.currentDirection := rfl
@[simp] theorem periodElapsed_seqState : (periodElapsed s).seqState = s.seqState := rfl
@[simp] theorem periodElapsed_seqRunning : (periodElapsed s).seqRunning = s.seqRunning := rfl
@[simp] theorem periodElapsed_phaseStart : (periodElapsed s).phaseStart = s.phaseStart := rfl
@[simp] theorem periodElapsed_nowMs : (periodElapsed s).nowMs = s.nowMs := rfl
@[simp] theorem periodElapsed_trace : (periodElapsed s).trace = s.trace ++ pulseEvents s := rfl
@[simp] theorem periodElapsed_rdData : (periodElapsed s).rdData = s.rdData := rfl
@[simp] theorem periodElapsed_params : (periodElapsed s).params = s.params := rfl
@[simp] theorem periodElapsed_script : (periodElapsed s).script = s.script := rfl

/-! ### `countReference` -/

@[simp] theorem countReference_direction : (countReference s).direction = s.direction := rfl
@[simp] theorem countReference_targetPulses : (countReference s).targetPulses = s.targetPulses := rfl
@[simp] theorem countReference_currentPulses : (countReference s).currentPulses = s.currentPulses := rfl
@[simp] theorem countReference_isMoving : (countReference s).isMoving = s.isMoving := rfl
@[simp] theorem countReference_countingEnabled : (countReference s).countingEnabled = s.countingEnabled := rfl
@[simp] theorem countReference_cbEn : (countReference s).cbEn = s.cbEn := rfl
@[simp] theorem countReference_period : (countReference s).period = s.period := rfl
@[simp] theorem countReference_duty : (countReference s).duty = s.duty := rfl
@[simp] theorem countReference_tickCnt : (countReference s).tickCnt = s.tickCnt + 1 := rfl
@[simp] theorem countReference_tickPending : (countReference s).tickPending = s.tickPending := rfl
@[simp] theorem countReference_cmpPending : (countReference s).cmpPending = (s.cmpPending || decide (s.tickCnt + 1 = s.duty)) := rfl
@[simp] theorem countReference_tickIrqEn : (countReference s).tickIrqEn = s.tickIrqEn := rfl
@[simp] theorem countReference_outCwEn : (countReference s).outCwEn = s.outCwEn := rfl
@[simp] theorem countReference_outCcwEn : (countReference s).outCcwEn = s.outCcwEn := rfl
@[simp] theorem countReference_freq : (countReference s).freq = s.freq := rfl
@[simp] theorem countReference_threshold : (countReference s).threshold = s.threshold := rfl
@[simp] theorem countReference_switchCurrent : (countReference s).switchCurrent = s.switchCurrent := rfl
@[simp] theorem countReference_switchHoldoff : (countReference s).switchHoldoff = s.switchHoldoff := rfl
@[simp] theorem countReference_switchDivision : (countReference s).switchDivision = s.switchDivision := rfl
@[simp] theorem countReference_swOut : (countReference s).swOut = s.swOut := rfl
@[simp] theorem countReference_buf : (countReference s).buf = s.buf := rfl
@[simp] theorem countReference_bufIdx : (countReference s).bufIdx = s.bufIdx := rfl
@[simp] theorem countReference_roundCount : (countReference s).roundCount = s.roundCount := rfl
@[simp] theorem countReference_motorMoving : (countReference s).motorMoving = s.motorMoving := rfl
@[simp] theorem countReference_targetSteps : (countReference s).targetSteps = s.targetSteps := rfl
@[simp] theorem countReference_currentSteps : (countReference s).currentSteps = s.currentSteps := rfl
@[simp] theorem countReference_currentDirection : (countReference s).currentDirection = s.currentDirection := rfl
@[simp] theorem countReference_seqState : (countReference s).seqState = s.seqState := rfl
@[simp] theorem countReference_seqRunning : (countReference s).seqRunning = s.seqRunning := rfl
@[simp] theorem countReference_phaseStart : (countReference s).phaseStart = s.phaseStart := rfl
@[simp] theorem countReference_nowMs : (countReference s).nowMs = s.nowMs := rfl
@[simp] theorem countReference_trace : (countReference s).trace = s.trace := rfl
@[simp] theorem countReference_rdData : (countReference s).rdData = s.rdData := rfl
@[simp] theorem countReference_params : (countReference s).params = s.params := rfl
@[simp] theorem countReference_script : (countReference s).script = s.script := rfl

/-! ### `clearTick` -/

@[simp] theorem clearTick_direction : (clearTick s).direction = s.direction := rfl
@[simp] theorem clearTick_targetPulses : (clearTick s).targetPulses = s.targetPulses := rfl
@[simp] theorem clearTick_currentPulses : (clearTick s).currentPulses = s.currentPulses := rfl
@[simp] theorem clearTick_isMoving : (clearTick s).isMoving = s.isMoving := rfl
@[simp] theorem clearTick_countingEnabled : (clearTick s).countingEnabled = s.countingEnabled := rfl
@[simp] theorem clearTick_cbEn : (clearTick s).cbEn = s.cbEn := rfl
@[simp] theorem clearTick_period : (clearTick s).period = s.period := rfl
@[simp] theorem clearTick_duty : (clearTick s).duty = s.duty := rfl
@[simp] theorem clearTick_tickCnt : (clearTick s).tickCnt = s.tickCnt := rfl
@[simp] theorem clearTick_tickPending : (clearTick s).tickPending = false := rfl
@[simp] theorem clearTick_cmpPending : (clearTick s).cmpPending = s.cmpPending := rfl
@[simp] theorem clearTick_tickIrqEn : (clearTick s).tickIrqEn = s.tickIrqEn := rfl
@[simp] theorem clearTick_outCwEn : (clearTick s).outCwEn = s.outCwEn := rfl
@[simp] theorem clearTick_outCcwEn : (clearTick s).outCcwEn = s.outCcwEn := rfl
@[simp] theorem clearTick_freq : (clearTick s).freq = s.freq := rfl
@[simp] theorem clearTick_threshold : (clearTick s).threshold = s.threshold := rfl
@[simp] theorem clearTick_switchCurrent : (clearTick s).switchCurrent = s.switchCurrent := rfl
@[simp] theorem clearTick_switchHoldoff : (clearTick s).switchHoldoff = s.switchHoldoff := rfl
@[simp] theorem clearTick_switchDivision : (clearTick s).switchDivision = s.switchDivision := rfl
@[simp] theorem clearTick_swOut : (clearTick s).swOut = s.swOut := rfl
@[simp] theorem clearTick_buf : (clearTick s).buf = s.buf := rfl
@[simp] theorem clearTick_bufIdx : (clearTick s).bufIdx = s.bufIdx := rfl
@[simp] theorem clearTick_roundCount : (clearTick s).roundCount = s.roundCount := rfl
@[simp] theorem clearTick_motorMoving : (clearTick s).motorMoving = s.motorMoving := rfl
@[simp] theorem clearTick_targetSteps : (clearTick s).targetSteps = s.targetSteps := rfl
@[simp] theorem clearTick_currentSteps : (clearTick s).currentSteps = s.currentSteps := rfl
@[simp] theorem clearTick_currentDirection : (clearTick s).currentDirection = s.currentDirection := rfl
@[simp] theorem clearTick_seqState : (clearTick s).seqState = s.seqState := rfl
@[simp] theorem clearTick_seqRunning : (clearTick s).seqRunning = s.seqRunning := rfl
@[simp] theorem clearTick_phaseStart : (clearTick s).phaseStart = s.phaseStart := rfl
@[simp] theorem clearTick_nowMs : (clearTick s).nowMs = s.nowMs := rfl
@[simp] theorem clearTick_trace : (clearTick s).trace = s.trace := rfl
@[simp] theorem clearTick_rdData : (clearTick s).rdData = s.rdData := rfl
@[simp] theorem clearTick_params : (clearTick s).params = s.params := rfl
@[simp] theorem clearTick_script : (clearTick s).script = s.script := rfl

/-! ### `onePulse` -/

@[simp] theorem onePulse_direction : (onePulse s).direction = s.direction := rfl
@[simp] theorem onePulse_targetPulses : (onePulse s).targetPulses = s.targetPulses := rfl
@[simp] theorem onePulse_currentPulses : (onePulse s).currentPulses = s.currentPulses + 1 := rfl
@[simp] theorem onePulse_isMoving : (onePulse s).isMoving = s.isMoving := rfl
@[simp] theorem onePulse_countingEnabled : (onePulse s).countingEnabled = s.countingEnabled := rfl
@[simp] theorem onePulse_cbEn : (onePulse s).cbEn = s.cbEn := rfl
@[simp] theorem onePulse_period : (onePulse s).period = s.period := rfl
@[simp] theorem onePulse_duty : (onePulse s).duty = s.duty := rfl
@[simp] theorem onePulse_tickCnt : (onePulse s).tickCnt = s.tickCnt := rfl
@[simp] theorem onePulse_tickPending : (onePulse s).tickPending = s.tickPending := rfl
@[simp] theorem onePulse_cmpPending : (onePulse s).cmpPending = s.cmpPending := rfl
@[simp] theorem onePulse_tickIrqEn : (onePulse s).tickIrqEn = s.tickIrqEn := rfl
@[simp] theorem onePulse_outCwEn : (onePulse s).outCwEn = s.outCwEn := rfl
@[simp] theorem onePulse_outCcwEn : (onePulse s).outCcwEn = s.outCcwEn := rfl
@[simp] theorem onePulse_freq : (onePulse s).freq = s.freq := rfl
@[simp] theorem onePulse_threshold : (onePulse s).threshold = s.threshold := rfl
@[simp] theorem onePulse_switchCurrent : (onePulse s).switchCurrent = s.switchCurrent := rfl
@[simp] theorem onePulse_switchHoldoff : (onePulse s).switchHoldoff = s.switchHoldoff := rfl
@[simp] theorem onePulse_switchDivision : (onePulse s).switchDivision = s.switchDivision := rfl
@[simp] theorem onePulse_swOut : (onePulse s).swOut = s.swOut := rfl
@[simp] theorem onePulse_buf : (onePulse s).buf = s.buf := rfl
@[simp] theorem onePulse_bufIdx : (onePulse s).bufIdx = s.bufIdx := rfl
@[simp] theorem onePulse_roundCount : (onePulse s).roundCount = s.roundCount := rfl
@[simp] theorem onePulse_motorMoving : (onePulse s).motorMoving = s.motorMoving := rfl
@[simp] theorem onePulse_targetSteps : (onePulse s).targetSteps = s.targetSteps := rfl
@[simp] theorem onePulse_currentSteps : (onePulse s).currentSteps = s.currentSteps := rfl
@[simp] theorem onePulse_currentDirection : (onePulse s).currentDirection = s.currentDirection := rfl
@[simp] theorem onePulse_seqState : (onePulse s).seqState = s.seqState := rfl
@[simp] theorem onePulse_seqRunning : (onePulse s).seqRunning = s.seqRunning := rfl
@[simp] theorem onePulse_phaseStart : (onePulse s).phaseStart = s.phaseStart := rfl
@[simp] theorem onePulse_nowMs : (onePulse s).nowMs = s.nowMs := rfl
@[simp] theorem onePulse_trace : (onePulse s).trace = s.trace := rfl
@[simp] theorem onePulse_rdData : (onePulse s).rdData = s.rdData := rfl
@[simp] theorem onePulse_params : (onePulse s).params = s.params := rfl
@[simp] theorem onePulse_script : (onePulse s).script = s.script := rfl

/-! ### `mirrorPulses` -/

@[simp] theorem mirrorPulses_direction : (mirrorPulses s).direction = s.direction := rfl
@[simp] theorem mirrorPulses_targetPulses : (mirrorPulses s).targetPulses = s.targetPulses := rfl
@[simp] theorem mirrorPulses_currentPulses : (mirrorPulses s).currentPulses = s.currentPulses := rfl
@[simp] theorem mirrorPulses_isMoving : (mirrorPulses s).isMoving = s.isMoving := rfl
@[simp] theorem mirrorPulses_countingEnabled : (mirrorPulses s).countingEnabled = s.countingEnabled := rfl
@[simp] theorem mirrorPulses_cbEn : (mirrorPulses s).cbEn = s.cbEn := rfl
@[simp] theorem mirrorPulses_period : (mirrorPulses s).period = s.period := rfl
@[simp] theorem mirrorPulses_duty : (mirrorPulses s).duty = s.duty := rfl
@[simp] theorem mirrorPulses_tickCnt : (mirrorPulses s).tickCnt = s.tickCnt := rfl
@[simp] theorem mirrorPulses_tickPending : (mirrorPulses s).tickPending = s.tickPending := rfl
@[simp] theorem mirrorPulses_cmpPending : (mirrorPulses s).cmpPending = s.cmpPending := rfl
@[simp] theorem mirrorPulses_tickIrqEn : (mirrorPulses s).tickIrqEn = s.tickIrqEn := rfl
@[simp] theorem mirrorPulses_outCwEn : (mirrorPulses s).outCwEn = s.outCwEn := rfl
@[simp] theorem mirrorPulses_outCcwEn : (mirrorPulses s).outCcwEn = s.outCcwEn := rfl
@[simp] theorem mirrorPulses_freq : (mirrorPulses s).freq = s.freq := rfl
@[simp] theorem mirrorPulses_threshold : (mirrorPulses s).threshold = s.threshold := rfl
@[simp] theorem mirrorPulses_switchCurrent : (mirrorPulses s).switchCurrent = s.switchCurrent := rfl
@[simp] theorem mirrorPulses_switchHoldoff : (mirrorPulses s).switchHoldoff = s.switchHoldoff := rfl
@[simp] theorem mirrorPulses_switchDivision : (mirrorPulses s).switchDivision = s.switchDivision := rfl
@[simp] theorem mirrorPulses_swOut : (mirrorPulses s).swOut = s.swOut := rfl
@[simp] theorem mirrorPulses_buf : (mirrorPulses s).buf = s.buf := rfl
@[simp] theorem mirrorPulses_bufIdx : (mirrorPulses s).bufIdx = s.bufIdx := rfl
@[simp] theorem mirrorPulses_roundCount : (mirrorPulses s).roundCount = s.roundCount := rfl
@[simp] theorem mirrorPulses_motorMoving : (mirrorPulses s).motorMoving = s.motorMoving := rfl
@[simp] theorem mirrorPulses_targetSteps : (mirrorPulses s).targetSteps = s.targetSteps := rfl
@[simp] theorem mirrorPulses_currentSteps : (mirrorPulses s).currentSteps = s.currentPulses := rfl
@[simp] theorem mirrorPulses_currentDirection : (mirrorPulses s).currentDirection = s.currentDirection := rfl
@[simp] theorem mirrorPulses_seqState : (mirrorPulses s).seqState = s.seqState := rfl
@[simp] theorem mirrorPulses_seqRunning : (mirrorPulses s).seqRunning = s.seqRunning := rfl
@[simp] theorem mirrorPulses_phaseStart : (mirrorPulses s).phaseStart = s.phaseStart := rfl
@[simp] theorem mirrorPulses_nowMs : (mirrorPulses s).nowMs = s.nowMs := rfl
@[simp] theorem mirrorPulses_trace : (mirrorPulses s).trace = s.trace := rfl
@[simp] theorem mirrorPulses_rdData : (mirrorPulses s).rdData = s.rdData := rfl
@[simp] theorem mirrorPulses_params : (mirrorPulses s).params = s.params := rfl
@[simp] theorem mirrorPulses_script : (mirrorPulses s).script = s.script := rfl

/-! ### `propagate` -/

@[simp] theorem propagate_direction : (propagate s).direction = s.direction := rfl
@[simp] theorem propagate_targetPulses : (propagate s).targetPulses = s.targetPulses := rfl
@[simp] theorem propagate_currentPulses : (propagate s).currentPulses = s.currentPulses := rfl
@[simp] theorem propagate_isMoving : (propagate s).isMoving = s.isMoving := rfl
@[simp] theorem propagate_countingEnabled : (propagate s).countingEnabled = s.countingEnabled := rfl
@[simp] theorem propagate_cbEn : (propagate s).cbEn = s.cbEn := rfl
@[simp] theorem propagate_period : (propagate s).period = s.period := rfl
@[simp] theorem propagate_duty : (propagate s).duty = s.duty := rfl
@[simp] theorem propagate_tickCnt : (propagate s).tickCnt = s.tickCnt := rfl
@[simp] theorem propagate_tickPending : (propagate s).tickPending = s.tickPending := rfl
@[simp] theorem propagate_cmpPending : (propagate s).cmpPending = s.cmpPending := rfl
@[simp] theorem propagate_tickIrqEn : (propagate s).tickIrqEn = s.tickIrqEn := rfl
@[simp] theorem propagate_outCwEn : (propagate s).outCwEn = s.outCwEn := rfl
@[simp] theorem propagate_outCcwEn : (propagate s).outCcwEn = s.outCcwEn := rfl
@[simp] theorem propagate_freq : (propagate s).freq = s.freq := rfl
@[simp] theorem propagate_threshold : (propagate s).threshold = s.threshold := rfl
@[simp] theorem propagate_switchCurrent : (propagate s).switchCurrent = s.switchCurrent := rfl
@[simp] theorem propagate_switchHoldoff : (propagate s).switchHoldoff = s.switchHoldoff := rfl
@[simp] theorem propagate_switchDivision : (propagate s).switchDivision = s.switchDivision := rfl
@[simp] theorem propagate_swOut : (propagate s).swOut = switchFlags s := rfl
@[simp] theorem propagate_buf : (propagate s).buf = s.buf := rfl
@[simp] theorem propagate_bufIdx : (propagate s).bufIdx = s.bufIdx := rfl
@[simp] theorem propagate_roundCount : (propagate s).roundCount = s.roundCount := rfl
@[simp] theorem propagate_motorMoving : (propagate s).motorMoving = s.motorMoving := rfl
@[simp] theorem propagate_targetSteps : (propagate s).targetSteps = s.targetSteps := rfl
@[simp] theorem propagate_currentSteps : (propagate s).currentSteps = s.currentSteps := rfl
@[simp] theorem propagate_currentDirection : (propagate s).currentDirection = s.currentDirection := rfl
@[simp] theorem propagate_seqState : (propagate s).seqState = s.seqState := rfl
@[simp] theorem propagate_seqRunning : (propagate s).seqRunning = s.seqRunning := rfl
@[simp] theorem propagate_phaseStart : (propagate s).phaseStart = s.phaseStart := rfl
@[simp] theorem propagate_nowMs : (propagate s).nowMs = s.nowMs := rfl
@[simp] theorem propagate_trace : (propagate s).trace = s.trace ++ [.switches s.switchCurrent s.switchHoldoff s.switchDivision] := rfl
@[simp] theorem propagate_rdData : (propagate s).rdData = s.rdData := rfl
@[simp] theorem propagate_params : (propagate s).params = s.params := rfl
@[simp] theorem propagate_script : (propagate s).script = s.script := rfl

/-! ### `enterPhase` -/

@[simp] theorem enterPhase_direction (p : Phase) : (enterPhase p s).direction = s.direction := rfl
@[simp] theorem enterPhase_targetPulses (p : Phase) : (enterPhase p s).targetPulses = s.targetPulses := rfl
@[simp] theorem enterPhase_currentPulses (p : Phase) : (enterPhase p s).currentPulses = s.currentPulses := rfl
@[simp] theorem enterPhase_isMoving (p : Phase) : (enterPhase p s).isMoving = s.isMoving := rfl
@[simp] theorem enterPhase_countingEnabled (p : Phase) : (enterPhase p s).countingEnabled = s.countingEnabled := rfl
@[simp] theorem enterPhase_cbEn (p : Phase) : (enterPhase p s).cbEn = s.cbEn := rfl
@[simp] theorem enterPhase_period (p : Phase) : (enterPhase p s).period = s.period := rfl
@[simp] theorem enterPhase_duty (p : Phase) : (enterPhase p s).duty = s.duty := rfl
@[simp] theorem enterPhase_tickCnt (p : Phase) : (enterPhase p s).tickCnt = s.tickCnt := rfl
@[simp] theorem enterPhase_tickPending (p : Phase) : (enterPhase p s).tickPending = s.tickPending := rfl
@[simp] theorem enterPhase_cmpPending (p : Phase) : (enterPhase p s).cmpPending = s.cmpPending := rfl
@[simp] theorem enterPhase_tickIrqEn (p : Phase) : (enterPhase p s).tickIrqEn = s.tickIrqEn := rfl
@[simp] theorem enterPhase_outCwEn (p : Phase) : (enterPhase p s).outCwEn = s.outCwEn := rfl
@[simp] theorem enterPhase_outCcwEn (p : Phase) : (enterPhase p s).outCcwEn = s.outCcwEn := rfl
@[simp] theorem enterPhase_freq (p : Phase) : (enterPhase p s).freq = s.freq := rfl
@[simp] theorem enterPhase_threshold (p : Phase) : (enterPhase p s).threshold = s.threshold := rfl
@[simp] theorem enterPhase_switchCurrent (p : Phase) : (enterPhase p s).switchCurrent = s.switchCurrent := rfl
@[simp] theorem enterPhase_switchHoldoff (p : Phase) : (enterPhase p s).switchHoldoff = s.switchHoldoff := rfl
@[simp] theorem enterPhase_switchDivision (p : Phase) : (enterPhase p s).switchDivision = s.switchDivision := rfl
@[simp] theorem enterPhase_swOut (p : Phase) : (enterPhase p s).swOut = s.swOut := rfl
@[simp] theorem enterPhase_buf (p : Phase) : (enterPhase p s).buf = s.buf := rfl
@[simp] theorem enterPhase_bufIdx (p : Phase) : (enterPhase p s).bufIdx = s.bufIdx := rfl
@[simp] theorem enterPhase_roundCount (p : Phase) : (enterPhase p s).roundCount = s.roundCount := rfl
@[simp] theorem enterPhase_motorMoving (p : Phase) : (enterPhase p s).motorMoving = s.motorMoving := rfl
@[simp] theorem enterPhase_targetSteps (p : Phase) : (enterPhase p s).targetSteps = s.targetSteps := rfl
@[simp] theorem enterPhase_currentSteps (p : Phase) : (enterPhase p s).currentSteps = s.currentSteps := rfl
@[simp] theorem enterPhase_currentDirection (p : Phase) : (enterPhase p s).currentDirection = s.currentDirection := rfl
@[simp] theorem enterPhase_seqState (p : Phase) : (enterPhase p s).seqState = p := rfl
@[simp] theorem enterPhase_seqRunning (p : Phase) : (enterPhase p s).seqRunning = s.seqRunning := rfl
@[simp] theorem enterPhase_phaseStart (p : Phase) : (enterPhase p s).phaseStart = s.nowMs := rfl
@[simp] theorem enterPhase_nowMs (p : Phase) : (enterPhase p s).nowMs = s.nowMs := rfl
@[simp] theorem enterPhase_trace (p : Phase) : (enterPhase p s).trace = s.trace := rfl
@[simp] theorem enterPhase_rdData (p : Phase) : (enterPhase p s).rdData = s.rdData := rfl
@[simp] theorem enterPhase_params (p : Phase) : (enterPhase p s).params = s.params := rfl
@[simp] theorem enterPhase_script (p : Phase) : (enterPhase p s).script = s.script := rfl

/-! ### `setPhase` -/

@[simp] theorem setPhase_direction (p : Phase) : (setPhase p s).direction = s.direction := rfl
@[simp] theorem setPhase_targetPulses (p : Phase) : (setPhase p s).targetPulses = s.targetPulses := rfl
@[simp] theorem setPhase_currentPulses (p : Phase) : (setPhase p s).currentPulses = s.currentPulses := rfl
@[simp] theorem setPhase_isMoving (p : Phase) : (setPhase p s).isMoving = s.isMoving := rfl
@[simp] theorem setPhase_countingEnabled (p : Phase) : (setPhase p s).countingEnabled = s.countingEnabled := rfl
@[simp] theorem setPhase_cbEn (p : Phase) : (setPhase p s).cbEn = s.cbEn := rfl
@[simp] theorem setPhase_period (p : Phase) : (setPhase p s).period = s.period := rfl
@[simp] theorem setPhase_duty (p : Phase) : (setPhase p s).duty = s.duty := rfl
@[simp] theorem setPhase_tickCnt (p : Phase) : (setPhase p s).tickCnt = s.tickCnt := rfl
@[simp] theorem setPhase_tickPending (p : Phase) : (setPhase p s).tickPending = s.tickPending := rfl
@[simp] theorem setPhase_cmpPending (p : Phase) : (setPhase p s).cmpPending = s.cmpPending := rfl
@[simp] theorem setPhase_tickIrqEn (p : Phase) : (setPhase p s).tickIrqEn = s.tickIrqEn := rfl
@[simp] theorem setPhase_outCwEn (p : Phase) : (setPhase p s).outCwEn = s.outCwEn := rfl
@[simp] theorem setPhase_outCcwEn (p : Phase) : (setPhase p s).outCcwEn = s.outCcwEn := rfl
@[simp] theorem setPhase_freq (p : Phase) : (setPhase p s).freq = s.freq := rfl
@[simp] theorem setPhase_threshold (p : Phase) : (setPhase p s).threshold = s.threshold := rfl
@[simp] theorem setPhase_switchCurrent (p : Phase) : (setPhase p s).switchCurrent = s.switchCurrent := rfl
@[simp] theorem setPhase_switchHoldoff (p : Phase) : (setPhase p s).switchHoldoff = s.switchHoldoff := rfl
@[simp] theorem setPhase_switchDivision (p : Phase) : (setPhase p s).switchDivision = s.switchDivision := rfl
@[simp] theorem setPhase_swOut (p : Phase) : (setPhase p s).swOut = s.swOut := rfl
@[simp] theorem setPhase_buf (p : Phase) : (setPhase p s).buf = s.buf := rfl
@[simp] theorem setPhase_bufIdx (p : Phase) : (setPhase p s).bufIdx = s.bufIdx := rfl
@[simp] theorem setPhase_roundCount (p : Phase) : (setPhase p s).roundCount = s.roundCount := rfl
@[simp] theorem setPhase_motorMoving (p : Phase) : (setPhase p s).motorMoving = s.motorMoving := rfl
@[simp] theorem setPhase_targetSteps (p : Phase) : (setPhase p s).targetSteps = s.targetSteps := rfl
@[simp] theorem setPhase_currentSteps (p : Phase) : (setPhase p s).currentSteps = s.currentSteps := rfl
@[simp] theorem setPhase_currentDirection (p : Phase) : (setPhase p s).currentDirection = s.currentDirection := rfl
@[simp] theorem setPhase_seqState (p : Phase) : (setPhase p s).seqState = p := rfl
@[simp] theorem setPhase_seqRunning (p : Phase) : (setPhase p s).seqRunning = s.seqRunning := rfl
@[simp] theorem setPhase_phaseStart (p : Phase) : (setPhase p s).phaseStart = s.phaseStart := rfl
@[simp] theorem setPhase_nowMs (p : Phase) : (setPhase p s).nowMs = s.nowMs := rfl
@[simp] theorem setPhase_trace (p : Phase) : (setPhase p s).trace = s.trace := rfl
@[simp] theorem setPhase_rdData (p : Phase) : (setPhase p s).rdData = s.rdData := rfl
@[simp] theorem setPhase_params (p : Phase) : (setPhase p s).params = s.params := rfl
@[simp] theorem setPhase_script (p : Phase) : (setPhase p s).script = s.script := rfl

/-! ### `startRunning` -/

@[simp] theorem startRunning_direction : (startRunning s).direction = s.direction := rfl
@[simp] theorem startRunning_targetPulses : (startRunning s).targetPulses = s.targetPulses := rfl
@[simp] theorem startRunning_currentPulses : (startRunning s).currentPulses = s.currentPulses := rfl
@[simp] theorem startRunning_isMoving : (startRunning s).isMoving = s.isMoving := rfl
@[simp] theorem startRunning_countingEnabled : (startRunning s).countingEnabled = s.countingEnabled := rfl
@[simp] theorem startRunning_cbEn : (startRunning s).cbEn = s.cbEn := rfl
@[simp] theorem startRunning_period : (startRunning s).period = s.period := rfl
@[simp] theorem startRunning_duty : (startRunning s).duty = s.duty := rfl
@[simp] theorem startRunning_tickCnt : (startRunning s).tickCnt = s.tickCnt := rfl
@[simp] theorem startRunning_tickPending : (startRunning s).tickPending = s.tickPending := rfl
@[simp] theorem startRunning_cmpPending : (startRunning s).cmpPending = s.cmpPending := rfl
@[simp] theorem startRunning_tickIrqEn : (startRunning s).tickIrqEn = s.tickIrqEn := rfl
@[simp] theorem startRunning_outCwEn : (startRunning s).outCwEn = s.outCwEn := rfl
@[simp] theorem startRunning_outCcwEn : (startRunning s).outCcwEn = s.outCcwEn := rfl
@[simp] theorem startRunning_freq : (startRunning s).freq = s.freq := rfl
@[simp] theorem startRunning_threshold : (startRunning s).threshold = s.threshold := rfl
@[simp] theorem startRunning_switchCurrent : (startRunning s).switchCurrent = s.switchCurrent := rfl
@[simp] theorem startRunning_switchHoldoff : (startRunning s).switchHoldoff = s.switchHoldoff := rfl
@[simp] theorem startRunning_switchDivision : (startRunning s).switchDivision = s.switchDivision := rfl
@[simp] theorem startRunning_swOut : (startRunning s).swOut = s.swOut := rfl
@[simp] theorem startRunning_buf : (startRunning s).buf = s.buf := rfl
@[simp] theorem startRunning_bufIdx : (startRunning s).bufIdx = s.bufIdx := rfl
@[simp] theorem startRunning_roundCount : (startRunning s).roundCount = s.roundCount := rfl
@[simp] theorem startRunning_motorMoving : (startRunning s).motorMoving = s.motorMoving := rfl
@[simp] theorem startRunning_targetSteps : (startRunning s).targetSteps = s.targetSteps := rfl
@[simp] theorem startRunning_currentSteps : (startRunning s).currentSteps = s.currentSteps := rfl
@[simp] theorem startRunning_currentDirection : (startRunning s).currentDirection = s.currentDirection := rfl
@[simp] theorem startRunning_seqState : (startRunning s).seqState = s.seqState := rfl
@[simp] theorem startRunning_seqRunning : (startRunning s).seqRunning = true := rfl
@[simp] theorem startRunning_phaseStart : (startRunning s).phaseStart = s.phaseStart := rfl
@[simp] theorem startRunning_nowMs : (startRunning s).nowMs = s.nowMs := rfl
@[simp] theorem startRunning_trace : (startRunning s).trace = s.trace := rfl
@[simp] theorem startRunning_rdData : (startRunning s).rdData = s.rdData := rfl
@[simp] theorem startRunning_params : (startRunning s).params = s.params := rfl
@[simp] theorem startRunning_script : (startRunning s).script = s.script := rfl

/-! ### `takeStimulus` -/

@[simp] theorem takeStimulus_direction (rest : List Stimulus) : (takeStimulus rest s).direction = s.direction := rfl
@[simp] theorem takeStimulus_targetPulses (rest : List Stimulus) : (takeStimulus rest s).targetPulses = s.targetPulses := rfl
@[simp] theorem takeStimulus_currentPulses (rest : List Stimulus) : (takeStimulus rest s).currentPulses = s.currentPulses := rfl
@[simp] theorem takeStimulus_isMoving (rest : List Stimulus) : (takeStimulus rest s).isMoving = s.isMoving := rfl
@[simp] theorem takeStimulus_countingEnabled (rest : List Stimulus) : (takeStimulus rest s).countingEnabled = s.countingEnabled := rfl
@[simp] theorem takeStimulus_cbEn (rest : List Stimulus) : (takeStimulus rest s).cbEn = s.cbEn := rfl
@[simp] theorem takeStimulus_period (rest : List Stimulus) : (takeStimulus rest s).period = s.period := rfl
@[simp] theorem takeStimulus_duty (rest : List Stimulus) : (takeStimulus rest s).duty = s.duty := rfl
@[simp] theorem takeStimulus_tickCnt (rest : List Stimulus) : (takeStimulus rest s).tickCnt = s.tickCnt := rfl
@[simp] theorem takeStimulus_tickPending (rest : List Stimulus) : (takeStimulus rest s).tickPending = s.tickPending := rfl
@[simp] theorem takeStimulus_cmpPending (rest : List Stimulus) : (takeStimulus rest s).cmpPending = s.cmpPending := rfl
@[simp] theorem takeStimulus_tickIrqEn (rest : List Stimulus) : (takeStimulus rest s).tickIrqEn = s.tickIrqEn := rfl
@[simp] theorem takeStimulus_outCwEn (rest : List Stimulus) : (takeStimulus rest s).outCwEn = s.outCwEn := rfl
@[simp] theorem takeStimulus_outCcwEn (rest : List Stimulus) : (takeStimulus rest s).outCcwEn = s.outCcwEn := rfl
@[simp] theorem takeStimulus_freq (rest : List Stimulus) : (takeStimulus rest s).freq = s.freq := rfl
@[simp] theorem takeStimulus_threshold (rest : List Stimulus) : (takeStimulus rest s).threshold = s.threshold := rfl
@[simp] theorem takeStimulus_switchCurrent (rest : List Stimulus) : (takeStimulus rest s).switchCurrent = s.switchCurrent := rfl
@[simp] theorem takeStimulus_switchHoldoff (rest : List Stimulus) : (takeStimulus rest s).switchHoldoff = s.switchHoldoff := rfl
@[simp] theorem takeStimulus_switchDivision (rest : List Stimulus) : (takeStimulus rest s).switchDivision = s.switchDivision := rfl
@[simp] theorem takeStimulus_swOut (rest : List Stimulus) : (takeStimulus rest s).swOut = s.swOut := rfl
@[simp] theorem takeStimulus_buf (rest : List Stimulus) : (takeStimulus rest s).buf = s.buf := rfl
@[simp] theorem takeStimulus_bufIdx (rest : List Stimulus) : (takeStimulus rest s).bufIdx = s.bufIdx := rfl
@[simp] theorem takeStimulus_roundCount (rest : List Stimulus) : (takeStimulus rest s).roundCount = s.roundCount := rfl
@[simp] theorem takeStimulus_motorMoving (rest : List Stimulus) : (takeStimulus rest s).motorMoving = s.motorMoving := rfl
@[simp] theorem takeStimulus_targetSteps (rest : List Stimulus) : (takeStimulus rest s).targetSteps = s.targetSteps := rfl
@[simp] theorem takeStimulus_currentSteps (rest : List Stimulus) : (takeStimulus rest s).currentSteps = s.currentSteps := rfl
@[simp] theorem takeStimulus_currentDirection (rest : List Stimulus) : (takeStimulus rest s).currentDirection = s.currentDirection := rfl
@[simp] theorem takeStimulus_seqState (rest : List Stimulus) : (takeStimulus rest s).seqState = s.seqState := rfl
@[simp] theorem takeStimulus_seqRunning (rest : List Stimulus) : (takeStimulus rest s).seqRunning = s.seqRunning := rfl
@[simp] theorem takeStimulus_phaseStart (rest : List Stimulus) : (takeStimulus rest s).phaseStart = s.phaseStart := rfl
@[simp] theorem takeStimulus_nowMs (rest : List Stimulus) : (takeStimulus rest s).nowMs = s.nowMs := rfl
@[simp] theorem takeStimulus_trace (rest : List Stimulus) : (takeStimulus rest s).trace = s.trace := rfl
@[simp] theorem takeStimulus_rdData (rest : List Stimulus) : (takeStimulus rest s).rdData = none := rfl
@[simp] theorem takeStimulus_params (rest : List Stimulus) : (takeStimulus rest s).params = s.params := rfl
@[simp] theorem takeStimulus_script (rest : List Stimulus) : (takeStimulus rest s).script = rest := rfl

/-! ### `setFrequency`: the fields no case writes -/

@[simp] theorem setFrequency_targetPulses (hz : U16) : (setFrequency hz s).targetPulses = s.targetPulses := by
  unfold setFrequency; split <;> rfl
@[simp] theorem setFrequency_currentPulses (hz : U16) : (setFrequency hz s).currentPulses = s.currentPulses := by
  unfold setFrequency; split <;> rfl
@[simp] theorem setFrequency_countingEnabled (hz : U16) : (setFrequency hz s).countingEnabled = s.countingEnabled := by
  unfold setFrequency; split <;> rfl
@[simp] theorem setFrequency_cbEn (hz : U16) : (setFrequency hz s).cbEn = s.cbEn := by
  unfold setFrequency; split <;> rfl
@[simp] theorem setFrequency_tickCnt (hz : U16) : (setFrequency hz s).tickCnt = s.tickCnt := by
  unfold setFrequency; split <;> rfl
@[simp] theorem setFrequency_tickPending (hz : U16) : (setFrequency hz s).tickPending = s.tickPending := by
  unfold setFrequency; split <;> rfl
@[simp] theorem setFrequency_cmpPending (hz : U16) : (setFrequency hz s).cmpPending = s.cmpPending := by
  unfold setFrequency; split <;> rfl
@[simp] theorem setFrequency_freq (hz : U16) : (setFrequency hz s).freq = s.freq := by
  unfold setFrequency; split <;> rfl
@[simp] theorem setFrequency_threshold (hz : U16) : (setFrequency hz s).threshold = s.threshold := by
  unfold setFrequency; split <;> rfl
@[simp] theorem setFrequency_switchCurrent (hz : U16) : (setFrequency hz s).switchCurrent = s.switchCurrent := by
  unfold setFrequency; split <;> rfl
@[simp] theorem setFrequency_switchHoldoff (hz : U16) : (setFrequency hz s).switchHoldoff = s.switchHoldoff := by
  unfold setFrequency; split <;> rfl
@[simp] theorem setFrequency_switchDivision (hz : U16) : (setFrequency hz s).switchDivision = s.switchDivision := by
  unfold setFrequency; split <;> rfl
@[simp] theorem setFrequency_swOut (hz : U16) : (setFrequency hz s).swOut = s.swOut := by
  unfold setFrequency; split <;> rfl
@[simp] theorem setFrequency_buf (hz : U16) : (setFrequency hz s).buf = s.buf := by
  unfold setFrequency; split <;> rfl
@[simp] theorem setFrequency_bufIdx (hz : U16) : (setFrequency hz s).bufIdx = s.bufIdx := by
  unfold setFrequency; split <;> rfl
@[simp] theorem setFrequency_roundCount (hz : U16) : (setFrequency hz s).roundCount = s.roundCount := by
  unfold setFrequency; split <;> rfl
@[simp] theorem setFrequency_seqState (hz : U16) : (setFrequency hz s).seqState = s.seqState := by
  unfold setFrequency; split <;> rfl
@[simp] theorem setFrequency_seqRunning (hz : U16) : (setFrequency hz s).seqRunning = s.seqRunning := by
  unfold setFrequency; split <;> rfl
@[simp] theorem setFrequency_phaseStart (hz : U16) : (setFrequency hz s).phaseStart = s.phaseStart := by
  unfold setFrequency; split <;> rfl
@[simp] theorem setFrequency_nowMs (hz : U16) : (setFrequency hz s).nowMs = s.nowMs := by
  unfold setFrequency; split <;> rfl
@[simp] theorem setFrequency_rdData (hz : U16) : (setFrequency hz s).rdData = s.rdData := by
  unfold setFrequency; split <;> rfl
@[simp] theorem setFrequency_params (hz : U16) : (setFrequency hz s).params = s.params := by
  unfold setFrequency; split <;> rfl
@[simp] theorem setFrequency_script (hz : U16) : (setFrequency hz s).script = s.script := by
  unfold setFrequency; split <;> rfl

/-! ### `continueMove`: the fields no case writes -/

@[simp] theorem continueMove_currentPulses (d : Direction) : (continueMove d s).currentPulses = s.currentPulses := by
  unfold continueMove; split <;> rfl
@[simp] theorem continueMove_cbEn (d : Direction) : (continueMove d s).cbEn = s.cbEn := by
  unfold continueMove; split <;> rfl
@[simp] theorem continueMove_period (d : Direction) : (continueMove d s).period = s.period := by
  unfold continueMove; split <;> rfl
@[simp] theorem continueMove_duty (d : Direction) : (continueMove d s).duty = s.duty := by
  unfold continueMove; split <;> rfl
@[simp] theorem continueMove_tickCnt (d : Direction) : (continueMove d s).tickCnt = s.tickCnt := by
  unfold continueMove; split <;> rfl
@[simp] theorem continueMove_tickPending (d : Direction) : (continueMove d s).tickPending = s.tickPending := by
  unfold continueMove; split <;> rfl
@[simp] theorem continueMove_cmpPending (d : Direction) : (continueMove d s).cmpPending = s.cmpPending := by
  unfold continueMove; split <;> rfl
@[simp] theorem continueMove_freq (d : Direction) : (continueMove d s).freq = s.freq := by
  unfold continueMove; split <;> rfl
@[simp] theorem continueMove_threshold (d : Direction) : (continueMove d s).threshold = s.threshold := by
  unfold continueMove; split <;> rfl
@[simp] theorem continueMove_switchCurrent (d : Direction) : (continueMove d s).switchCurrent = s.switchCurrent := by
  unfold continueMove; split <;> rfl
@[simp] theorem continueMove_switchHoldoff (d : Direction) : (continueMove d s).switchHoldoff = s.switchHoldoff := by
  unfold continueMove; split <;> rfl
@[simp] theorem continueMove_switchDivision (d : Direction) : (continueMove d s).switchDivision = s.switchDivision := by
  unfold continueMove; split <;> rfl
@[simp] theorem continueMove_swOut (d : Direction) : (continueMove d s).swOut = s.swOut := by
  unfold continueMove; split <;> rfl
@[simp] theorem continueMove_buf (d : Direction) : (continueMove d s).buf = s.buf := by
  unfold continueMove; split <;> rfl
@[simp] theorem continueMove_bufIdx (d : Direction) : (continueMove d s).bufIdx = s.bufIdx := by
  unfold continueMove; split <;> rfl
@[simp] theorem continueMove_roundCount (d : Direction) : (continueMove d s).roundCount = s.roundCount := by
  unfold continueMove; split <;> rfl
@[simp] theorem continueMove_seqState (d : Direction) : (continueMove d s).seqState = s.seqState := by
  unfold continueMove; split <;> rfl
@[simp] theorem continueMove_seqRunning (d : Direction) : (continueMove d s).seqRunning = s.seqRunning := by
  unfold continueMove; split <;> rfl
@[simp] theorem continueMove_phaseStart (d : Direction) : (continueMove d s).phaseStart = s.phaseStart := by
  unfold continueMove; split <;> rfl
@[simp] theorem continueMove_nowMs (d : Direction) : (continueMove d s).nowMs = s.nowMs := by
  unfold continueMove; split <;> rfl
@[simp] theorem continueMove_rdData (d : Direction) : (continueMove d s).rdData = s.rdData := by
  unfold continueMove; split <;> rfl
@[simp] theorem continueMove_params (d : Direction) : (continueMove d s).params = s.params := by
  unfold continueMove; split <;> rfl
@[simp] theorem continueMove_script (d : Direction) : (continueMove d s).script = s.script := by
  unfold continueMove; split <;> rfl

/-! ### `countPulse`: the fields no case writes -/

@[simp] theorem countPulse_targetPulses : (countPulse s).targetPulses = s.targetPulses := by
  unfold countPulse; split <;> rfl
@[simp] theorem countPulse_countingEnabled : (countPulse s).countingEnabled = s.countingEnabled := by
  unfold countPulse; split <;> rfl
@[simp] theorem countPulse_cbEn : (countPulse s).cbEn = s.cbEn := by
  unfold countPulse; split <;> rfl
@[simp] theorem countPulse_period : (countPulse s).period = s.period := by
  unfold countPulse; split <;> rfl
@[simp] theorem countPulse_duty : (countPulse s).duty = s.duty := by
  unfold countPulse; split <;> rfl
@[simp] theorem countPulse_tickCnt : (countPulse s).tickCnt = s.tickCnt := by
  unfold countPulse; split <;> rfl
@[simp] theorem countPulse_tickPending : (countPulse s).tickPending = s.tickPending := by
  unfold countPulse; split <;> rfl
@[simp] theorem countPulse_cmpPending : (countPulse s).cmpPending = s.cmpPending := by
  unfold countPulse; split <;> rfl
@[simp] theorem countPulse_freq : (countPulse s).freq = s.freq := by
  unfold countPulse; split <;> rfl
@[simp] theorem countPulse_threshold : (countPulse s).threshold = s.threshold := by
  unfold countPulse; split <;> rfl
@[simp] theorem countPulse_switchCurrent : (countPulse s).switchCurrent = s.switchCurrent := by
  unfold countPulse; split <;> rfl
@[simp] theorem countPulse_switchHoldoff : (countPulse s).switchHoldoff = s.switchHoldoff := by
  unfold countPulse; split <;> rfl
@[simp] theorem countPulse_switchDivision : (countPulse s).switchDivision = s.switchDivision := by
  unfold countPulse; split <;> rfl
@[simp] theorem countPulse_swOut : (countPulse s).swOut = s.swOut := by
  unfold countPulse; split <;> rfl
@[simp] theorem countPulse_buf : (countPulse s).buf = s.buf := by
  unfold countPulse; split <;> rfl
@[simp] theorem countPulse_bufIdx : (countPulse s).bufIdx = s.bufIdx := by
  unfold countPulse; split <;> rfl
@[simp] theorem countPulse_roundCount : (countPulse s).roundCount = s.roundCount := by
  unfold countPulse; split <;> rfl
@[simp] theorem countPulse_seqState : (countPulse s).seqState = s.seqState := by
  unfold countPulse; split <;> rfl
@[simp] theorem countPulse_seqRunning : (countPulse s).seqRunning = s.seqRunning := by
  unfold countPulse; split <;> rfl
@[simp] theorem countPulse_phaseStart : (countPulse s).phaseStart = s.phaseStart := by
  unfold countPulse; split <;> rfl
@[simp] theorem countPulse_nowMs : (countPulse s).nowMs = s.nowMs := by
  unfold countPulse; split <;> rfl
@[simp] theorem countPulse_rdData : (countPulse s).rdData = s.rdData := by
  unfold countPulse; split <;> rfl
@[simp] theorem countPulse_params : (countPulse s).params = s.params := by
  unfold countPulse; split <;> rfl
@[simp] theorem countPulse_script : (countPulse s).script = s.script := by
  unfold countPulse; split <;> rfl

/-! ### `boundedMove`: the fields no case writes -/

@[simp] theorem boundedMove_cbEn (d : Direction) (n : U16) : (boundedMove d n s).cbEn = s.cbEn := by
  unfold boundedMove; split <;> simp
@[simp] theorem boundedMove_freq (d : Direction) (n : U16) : (boundedMove d n s).freq = s.freq := by
  unfold boundedMove; split <;> simp
@[simp] theorem boundedMove_threshold (d : Direction) (n : U16) : (boundedMove d n s).threshold = s.threshold := by
  unfold boundedMove; split <;> simp
@[simp] theorem boundedMove_switchCurrent (d : Direction) (n : U16) : (boundedMove d n s).switchCurrent = s.switchCurrent := by
  unfold boundedMove; split <;> simp
@[simp] theorem boundedMove_switchHoldoff (d : Direction) (n : U16) : (boundedMove d n s).switchHoldoff = s.switchHoldoff := by
  unfold boundedMove; split <;> simp
@[simp] theorem boundedMove_switchDivision (d : Direction) (n : U16) : (boundedMove d n s).switchDivision = s.switchDivision := by
  unfold boundedMove; split <;> simp
@[simp] theorem boundedMove_swOut (d : Direction) (n : U16) : (boundedMove d n s).swOut = s.swOut := by
  unfold boundedMove; split <;> simp
@[simp] theorem boundedMove_buf (d : Direction) (n : U16) : (boundedMove d n s).buf = s.buf := by
  unfold boundedMove; split <;> simp
@[simp] theorem boundedMove_bufIdx (d : Direction) (n : U16) : (boundedMove d n s).bufIdx = s.bufIdx := by
  unfold boundedMove; split <;> simp
@[simp] theorem boundedMove_roundCount (d : Direction) (n : U16) : (boundedMove d n s).roundCount = s.roundCount := by
  unfold boundedMove; split <;> simp
@[simp] theorem boundedMove_seqState (d : Direction) (n : U16) : (boundedMove d n s).seqState = s.seqState := by
  unfold boundedMove; split <;> simp
@[simp] theorem boundedMove_seqRunning (d : Direction) (n : U16) : (boundedMove d n s).seqRunning = s.seqRunning := by
  unfold boundedMove; split <;> simp
@[simp] theorem boundedMove_phaseStart (d : Direction) (n : U16) : (boundedMove d n s).phaseStart = s.phaseStart := by
  unfold boundedMove; split <;> simp
@[simp] theorem boundedMove_nowMs (d : Direction) (n : U16) : (boundedMove d n s).nowMs = s.nowMs := by
  unfold boundedMove; split <;> simp
@[simp] theorem boundedMove_rdData (d : Direction) (n : U16) : (boundedMove d n s).rdData = s.rdData := by
  unfold boundedMove; split <;> simp
@[simp] theorem boundedMove_params (d : Direction) (n : U16) : (boundedMove d n s).params = s.params := by
  unfold boundedMove; split <;> simp
@[simp] theorem boundedMove_script (d : Direction) (n : U16) : (boundedMove d n s).script = s.script := by
  unfold boundedMove; split <;> simp

end Sys2Proof.Machine
end

