-- ==== Sys2Proof/Laws/Ops.lean ====
section
/-! SUPPORT. Everything each shared operation can do, said once: which of its cases holds and what it
answers there. Proofs cite these and unfold no operation. -/

namespace Sys2Proof.Machine

open Sys2Proof Sys2Proof.Safety

/-! ### Frequencies -/

/-- The clamp is the minimum with 1000. -/
theorem clampFreq_toNat (hz : U16) : (clampFreq hz).toNat = min hz.toNat 1000 := by
  have h : (Config.maxFreq).toNat = 1000 := rfl
  unfold clampFreq
  split
  · rename_i hlt
    rw [BitVec.lt_def, h] at hlt
    omega
  · rename_i hlt
    rw [BitVec.lt_def, h] at hlt
    omega

/-- A rounded quotient is the one number that the comparison with the halves names. -/
theorem roundQuotient_spec (ties : RoundTies) (n d : Nat) (hd : 0 < d) :
    RoundsTo ties n d (roundQuotient ties n d) := by
  have h1 : d * (n / d) + n % d = n := Nat.div_add_mod n d
  have h2 : n % d < d := Nat.mod_lt n hd
  unfold roundQuotient
  set q := n / d
  set r := n % d
  have e1 : 2 * q * d = 2 * (d * q) := by ring
  have e2 : 2 * (q + 1) * d = 2 * (d * q) + 2 * d := by ring
  simp only
  split
  · cases ties
    · exact ⟨by omega, by omega⟩
    · exact .inl ⟨by omega, by omega⟩
  · split
    · cases ties
      · exact ⟨by omega, by omega⟩
      · exact .inl ⟨by omega, by omega⟩
    · cases ties
      · exact ⟨by simp only; omega, by simp only; omega⟩
      · simp only
        split
        · exact .inr (.inr ⟨by omega, by assumption⟩)
        · exact .inr (.inl ⟨by omega, by omega⟩)

/-- At a clamped frequency the rounded quotient lies in 1000..1000000. -/
theorem roundsTo_range {ties : RoundTies} {f q : Nat} (h : RoundsTo ties 1000000 f q)
    (h1 : 1 ≤ f) (h2 : f ≤ 1000) : 1000 ≤ q ∧ q ≤ 1000000 := by
  have key : 2 * q * f ≤ 2000000 + f ∧ 2000000 ≤ 2 * q * f + f := by
    cases ties <;> simp only [RoundsTo] at h <;> omega
  obtain ⟨ha, hb⟩ := key
  constructor
  · by_contra hlt
    have : q ≤ 999 := by omega
    have : 2 * q * f ≤ 2 * 999 * f := Nat.mul_le_mul_right f (by omega)
    omega
  · by_contra hgt
    have hq : 1000001 ≤ q := by omega
    have : 2 * 1000001 * f ≤ 2 * q * f := Nat.mul_le_mul_right f (by omega)
    omega

/-- The programmed period is one less than the rounded quotient, with no wrap. -/
theorem periodOf_toNat (ties : RoundTies) (f : U16) (h1 : 1 ≤ f.toNat) (h2 : f.toNat ≤ 1000) :
    (periodOf ties f).toNat = roundQuotient ties 1000000 f.toNat - 1 := by
  have h := roundsTo_range (roundQuotient_spec ties 1000000 f.toNat (by omega)) h1 h2
  unfold periodOf Config.referenceRate
  rw [BitVec.toNat_ofNat, Nat.mod_eq_of_lt (by omega)]

/-- The programmed period lies in 999..999999 (40_pulse_clock.md R101). -/
theorem periodOf_range (ties : RoundTies) (f : U16) (h1 : 1 ≤ f.toNat) (h2 : f.toNat ≤ 1000) :
    999 ≤ (periodOf ties f).toNat ∧ (periodOf ties f).toNat ≤ 999999 := by
  have h := roundsTo_range (roundQuotient_spec ties 1000000 f.toNat (by omega)) h1 h2
  rw [periodOf_toNat ties f h1 h2]
  omega

/-- The duty is half of the period's length, rounded down, with no wrap. -/
theorem dutyOf_toNat (p : U32) : (dutyOf p).toNat = (p.toNat + 1) / 2 := by
  have h := p.isLt
  unfold dutyOf
  rw [BitVec.toNat_ofNat, Nat.mod_eq_of_lt (by omega)]

/-! ### Driver procedures -/

/-- `SetFrequency(0)` is `Stop()`. -/
theorem setFrequency_zero (s : State) : setFrequency 0 s = stop s := rfl

/-- `SetFrequency(hz)` with `hz` not 0 programs the clamped frequency. -/
theorem setFrequency_nonzero {hz : U16} (h : hz ≠ 0) (s : State) :
    setFrequency hz s = program (clampFreq hz) s := if_neg h

/-- `ORIGIN_FREQ` is neither 0 nor clamped: `SetFrequency(ORIGIN_FREQ)` always programs it. -/
theorem setFrequency_origin (o : OriginFreq) (s : State) : setFrequency o.hz s = program o.hz s := by
  have h1 := o.pos
  have h2 := o.le
  have hne : o.hz ≠ 0 := by
    intro h
    rw [h] at h1
    exact absurd h1 (by decide)
  have hc : clampFreq o.hz = o.hz := by
    apply BitVec.eq_of_toNat_eq
    rw [clampFreq_toNat]
    omega
  rw [setFrequency_nonzero hne, hc]

/-- `Move` with no steps or no direction of motion is `Stop()`. -/
theorem boundedMove_degraded {d : Direction} {n : U16} (h : n = 0 ∨ asksMotion d = false) (s : State) :
    boundedMove d n s = stop s := if_pos h

/-- A successful `Move` starts a bounded move at `ORIGIN_FREQ`. -/
theorem boundedMove_started {d : Direction} {n : U16} (hn : n ≠ 0) (hd : asksMotion d = true) (s : State) :
    boundedMove d n s = moveStart d n (program s.params.originFreq.hz (moveCounts n s)) := by
  have h : ¬ (n = 0 ∨ asksMotion d = false) := not_or.mpr ⟨hn, by simp [hd]⟩
  unfold boundedMove
  rw [if_neg h, setFrequency_origin]

/-- `ContinueMove` with no direction of motion is `Stop()`. -/
theorem continueMove_degraded {d : Direction} (h : asksMotion d = false) (s : State) :
    continueMove d s = stop s := if_pos h

/-- A successful `ContinueMove`. -/
theorem continueMove_started {d : Direction} (h : asksMotion d = true) (s : State) :
    continueMove d s = continueStart d s := by
  unfold continueMove
  rw [if_neg (by simp [h])]

/-- A direction of motion is clockwise or counterclockwise. -/
theorem asksMotion_cases {d : Direction} (h : asksMotion d = true) :
    d = .clockwise ∨ d = .counterClockwise := by
  cases d <;> simp_all [asksMotion]

/-- The counting part of a tick: either the new count reaches the target and the move stops, or it goes on. -/
theorem countPulse_cases (s : State) :
    (s.targetPulses ≤ s.currentPulses + 1 ∧ countPulse s = stop (onePulse s)) ∨
    (s.currentPulses + 1 < s.targetPulses ∧ countPulse s = onePulse s) := by
  by_cases h : s.targetPulses ≤ s.currentPulses + 1
  · exact .inl ⟨h, if_pos h⟩
  · exact .inr ⟨BitVec.not_le.mp h, if_neg h⟩

/-! ### Guarded and refusable operations -/

/-- An operation with a guard answers a next state exactly when the guard holds, and then that state. -/
theorem guarded_next {g : Bool} {u t : State} {r : Refusal} :
    (if g then (.next u : Result) else .refused r) = .next t ↔ g = true ∧ t = u := by
  cases g
  · exact ⟨nofun, fun h => absurd h.1 nofun⟩
  · exact ⟨fun e => ⟨rfl, (Host.Outcome.next.inj e).symm⟩, fun h => congrArg _ h.2.symm⟩

/-- TMRUPD answers a next state exactly when an output is enabled. -/
theorem execTmrupd_next {s t : State} :
    execTmrupd s = .next t ↔ outputEnabled s = true ∧ t = periodElapsed s := guarded_next

/-- TMRCMP answers a next state exactly when an output is enabled. -/
theorem execTmrcmp_next {s t : State} :
    execTmrcmp s = .next t ↔ outputEnabled s = true ∧ t = { s with cmpPending := true } := guarded_next

/-- REFCLK answers a next state exactly when an output is enabled: the period ends or the counter counts. -/
theorem execRefclk_next {s t : State} :
    execRefclk s = .next t ↔ outputEnabled s = true ∧
      ((s.period ≤ s.tickCnt ∧ t = periodElapsed s) ∨ (s.tickCnt < s.period ∧ t = countReference s)) := by
  refine guarded_next.trans (and_congr_right fun _ => ?_)
  by_cases h : s.period ≤ s.tickCnt
  · rw [if_pos h]
    exact ⟨fun e => .inl ⟨h, e⟩, fun e => e.elim (·.2) (fun x => absurd x.1 (BitVec.not_lt.mpr h))⟩
  · rw [if_neg h]
    exact ⟨fun e => .inr ⟨BitVec.not_le.mp h, e⟩, fun e => e.elim (fun x => absurd x.1 h) (·.2)⟩

/-- TICK answers a next state exactly when the tick interrupt is enabled and pending. -/
theorem execTick_next {s t : State} :
    execTick s = .next t ↔ tickReady s = true ∧
      ((s.countingEnabled = true ∧ t = countPulse (clearTick s)) ∨
       (s.countingEnabled = false ∧ t = clearTick s)) := by
  refine guarded_next.trans (and_congr_right fun _ => ?_)
  cases s.countingEnabled
  · exact ⟨fun e => .inr ⟨rfl, e⟩, fun e => e.elim (fun x => absurd x.1 nofun) (·.2)⟩
  · exact ⟨fun e => .inl ⟨rfl, e⟩, fun e => e.elim (·.2) (fun x => absurd x.1 nofun)⟩

/-- A buffer slot answers exactly at 0x18..0x1F. -/
theorem bufRead_isSome (n : Nat) (s : State) :
    (bufRead n s).isSome = (decide (0x18 ≤ n) && decide (n ≤ 0x1F)) := by
  unfold bufRead
  by_cases h : 0x18 ≤ n
  · by_cases h2 : n - 0x18 < 8
    · rw [if_pos h, Vector.getElem?_eq_getElem h2]
      simp
      omega
    · rw [if_pos h, Vector.getElem?_eq_none (by omega)]
      simp
      omega
  · rw [if_neg h]
    simp
    omega

/-- The mapped addresses are exactly those `RegRead` answers for (20_memory.md R61). -/
theorem regRead_isSome (addr : Byte) (s : State) : (regRead addr s).isSome = mappedAddr addr := by
  unfold regRead mappedAddr
  split <;> first
    | (rename_i h; simp [h]; done)
    | (rw [bufRead_isSome, Bool.eq_iff_iff]
       have hlt := addr.isLt
       simp
       simp only [imp_false] at *
       intro h; omega)

end Sys2Proof.Machine
end

