-- ==== Sys2Proof/Laws/PerInstr.lean ====
section
/-! SUPPORT. Statements about every operation as syntax, one lemma per constructor. Family `TableWord`: the
encoded word lies in its row of 30_encoding.md R85 and is in its agent's half of the opcode space (R84). -/

namespace Sys2Proof.Laws.TableWord

open Sys2Proof

/-- The word of an operation has its row's match under its row's mask, and bit 31 says whether it is an
event or a command-port word. -/
def Statement (i : Instr) : Prop :=
  encode i &&& i.tableRow.2 = i.tableRow.1 ∧ ((encode i).getLsbD 31 = true ↔ i.agent ≠ .cmd)

/-- A packed word under a mask, field by field. -/
theorem packWord_masked {op a opM aM opR aR : Byte} {imm immM immR : U16} (ho : op &&& opM = opR)
    (ha : a &&& aM = aR) (hi : imm &&& immM = immR) :
    packWord op a imm &&& packWord opM aM immM = packWord opR aR immR := by
  subst ho ha hi
  apply BitVec.eq_of_getLsbD_eq
  intro j _
  simp only [BitVec.getLsbD_and, getLsbD_packWord]
  split
  · rfl
  · split <;> rfl

/-- Bit 31 of a packed word is bit 7 of its `op`. -/
theorem packWord_bit31 (op a : Byte) (imm : U16) : (packWord op a imm).getLsbD 31 = op.getLsbD 7 := by
  rw [getLsbD_packWord]
  rfl

/-- The two parts of the statement, from the fields of the word, the mask and the match. -/
theorem of_fields {i : Instr} (op a opM aM opR aR : Byte) (imm immM immR : U16)
    (hw : encode i = packWord op a imm) (hm : i.tableRow.2 = packWord opM aM immM)
    (hr : i.tableRow.1 = packWord opR aR immR) (ho : op &&& opM = opR) (ha : a &&& aM = aR)
    (hi : imm &&& immM = immR) (hb : op.getLsbD 7 = true ↔ i.agent ≠ .cmd) : Statement i := by
  refine ⟨?_, ?_⟩
  · rw [hw, hm, hr, packWord_masked ho ha hi]
  · rw [hw, packWord_bit31]
    exact hb

theorem drvinit : Statement .drvinit := by
  unfold Statement; decide

theorem setf (hz : U16) : Statement (.setf hz) :=
  of_fields 0x02 0 0xFF 0xFF 0x02 0 hz 0 0 rfl rfl rfl rfl rfl (by simp) ⟨nofun, fun h => absurd rfl h⟩

theorem move (dir : Direction) (steps : U16) : Statement (.move dir steps) :=
  of_fields 0x03 (dir.bits.setWidth 8) 0xFF 0xFC 0x03 0 steps 0 0 rfl rfl rfl rfl (by cases dir <;> rfl) (by simp)
    ⟨nofun, fun h => absurd rfl h⟩

theorem cmove (dir : Direction) : Statement (.cmove dir) := by
  unfold Statement; cases dir <;> decide

theorem stop : Statement .stop := by
  unfold Statement; decide

theorem drvproc : Statement .drvproc := by
  unfold Statement; decide

theorem setcb (en : Bool) : Statement (.setcb en) := by
  unfold Statement; cases en <;> decide

theorem rstcnt : Statement .rstcnt := by
  unfold Statement; decide

theorem wrfreq (hz : U16) : Statement (.wrfreq hz) :=
  of_fields 0x10 0 0xFF 0xFF 0x10 0 hz 0 0 rfl rfl rfl rfl rfl (by simp) ⟨nofun, fun h => absurd rfl h⟩

theorem wrthr (thr : U16) : Statement (.wrthr thr) :=
  of_fields 0x11 0 0xFF 0xFF 0x11 0 thr 0 0 rfl rfl rfl rfl rfl (by simp) ⟨nofun, fun h => absurd rfl h⟩

theorem wrsw (name : SwitchName) (val : Bool) : Statement (.wrsw name val) := by
  unfold Statement; cases name <;> cases val <;> decide

theorem swsync : Statement .swsync := by
  unfold Statement; decide

theorem rdreg (addr : Byte) : Statement (.rdreg addr) :=
  of_fields 0x1F addr 0xFF 0 0x1F 0 0 0xFFFF 0 rfl rfl rfl rfl (by simp) rfl ⟨nofun, fun h => absurd rfl h⟩

theorem seqinit : Statement .seqinit := by
  unfold Statement; decide

theorem start : Statement .start := by
  unfold Statement; decide

theorem seqproc : Statement .seqproc := by
  unfold Statement; decide

theorem reset : Statement .reset := by
  unfold Statement; decide

theorem tmrupd : Statement .tmrupd := by
  unfold Statement; decide

theorem tmrcmp : Statement .tmrcmp := by
  unfold Statement; decide

theorem tick : Statement .tick := by
  unfold Statement; decide

theorem refclk : Statement .refclk := by
  unfold Statement; decide

theorem push (sample : U16) : Statement (.push sample) :=
  of_fields 0x88 0 0xFF 0xFF 0x88 0 sample 0 0 rfl rfl rfl rfl rfl (by simp) ⟨fun _ => nofun, fun _ => rfl⟩

theorem rinc : Statement .rinc := by
  unfold Statement; decide

theorem rdec : Statement .rdec := by
  unfold Statement; decide

theorem mstick : Statement .mstick := by
  unfold Statement; decide

end Sys2Proof.Laws.TableWord
end

