-- ==== Sys2Proof/Tests/Slice0.lean ====
section
/-! SUPPORT. Tests of one step each, with the expected values of 95_test_vectors.md (V1 to V92, P1 to P5); and a
witness for the hypotheses of every statement of Certificates/Slice0/Obligations.lean. -/

namespace Sys2Proof.Tests

open Sys2Proof Sys2Proof.Machine Sys2Proof.Safety

/-! ### Helpers -/

/-- The parameters of 95_test_vectors.md: `ORIGIN_FREQ = 200`, the other two at their defaults. -/
def testParams : Params where
  originFreq := { hz := 200, pos := by decide, le := by decide }
  cbEdgeOnly := false
  roundTies  := .halfUp

/-- The reset state with those parameters. -/
def base : State := { State.reset with params := testParams }

/-- The reset state with the callback on a moving-to-stopped edge only. -/
def edgeOnly : State := { base with params := { testParams with cbEdgeOnly := true } }

/-- The reset state with ties to even. -/
def evenTies : State := { base with params := { testParams with roundTies := .halfEven } }

/-- The operation completes, and its next state passes the check. -/
def completes (r : Result) (check : State → Bool) : Bool :=
  match r with
  | .next t    => check t
  | .fault _   => false
  | .refused _ => false

/-- The operation is refused for this reason. -/
def isRefused (r : Result) (why : Refusal) : Bool :=
  match r with
  | .next _    => false
  | .fault _   => false
  | .refused e => decide (e = why)

/-- RDREG of this address gives this value. -/
def readsAs (s : State) (addr : Byte) (v : U32) : Bool :=
  completes (exec (.rdreg addr) s) (fun t => decide (t.rdData = some v))

/-- What completes has a next state. -/
theorem next_of_completes {r : Result} {check : State → Bool} (h : completes r check = true) :
    ∃ t, r = .next t := by
  cases r with
  | next t    => exact ⟨t, rfl⟩
  | fault f   => cases f
  | refused e => exact absurd h nofun

/-- A clockwise bounded move of 10 pulses with 4 counted, a callback registered (V35). -/
def moving : State :=
  { base with
    direction := .clockwise, targetPulses := 10, currentPulses := 4, isMoving := true
    countingEnabled := true, cbEn := true, period := 4999, duty := 2500, tickIrqEn := true
    outCwEn := true, motorMoving := true, targetSteps := 10, currentDirection := .clockwise }

/-- A running sequence in the given phase, threshold 50, the clock at 500 and the phase begun at 300 (V70). -/
def inPhase (p : Phase) : State :=
  { base with seqState := p, seqRunning := true, threshold := 50, nowMs := 500, phaseStart := 300 }

/-! ### Decoding: every row of 30_encoding.md R85, and the reserved words of R88 -/

theorem test_decode_driver_words :
    decode 0x01000000 = .ok .drvinit ∧ decode 0x020001F4 = .ok (.setf 500) ∧
    decode 0x030107D0 = .ok (.move .clockwise 2000) ∧ decode 0x03030005 = .ok (.move .invalid 5) ∧
    decode 0x04020000 = .ok (.cmove .counterClockwise) ∧ decode 0x05000000 = .ok .stop ∧
    decode 0x06000000 = .ok .drvproc ∧ decode 0x07010000 = .ok (.setcb true) ∧
    decode 0x08000000 = .ok .rstcnt := by decide

theorem test_decode_motion_words :
    decode 0x100001F4 = .ok (.wrfreq 500) ∧ decode 0x1100FFFF = .ok (.wrthr (-1)) ∧
    decode 0x12020001 = .ok (.wrsw .division true) ∧ decode 0x12010000 = .ok (.wrsw .holdoff false) ∧
    decode 0x13000000 = .ok .swsync ∧ decode 0x1F1F0000 = .ok (.rdreg 0x1F) := by decide

theorem test_decode_sequencer_words :
    decode 0x20000000 = .ok .seqinit ∧ decode 0x21000000 = .ok .start ∧
    decode 0x22000000 = .ok .seqproc ∧ decode 0x80000000 = .ok .reset := by decide

theorem test_decode_event_words :
    decode 0x81000000 = .ok .tmrupd ∧ decode 0x82000000 = .ok .tmrcmp ∧ decode 0x83000000 = .ok .tick ∧
    decode 0x84000000 = .ok .refclk ∧ decode 0x8800003C = .ok (.push 60) ∧ decode 0x89000000 = .ok .rinc ∧
    decode 0x8A000000 = .ok .rdec ∧ decode 0x8B000000 = .ok .mstick := by decide

/-- V90. -/
theorem test_decode_refuses_reserved :
    decode 0x00000000 = .error .undefinedOp ∧ decode 0x09000000 = .error .undefinedOp ∧
    decode 0x85000000 = .error .undefinedOp ∧ decode 0xFFFFFFFF = .error .undefinedOp ∧
    decode 0x05000001 = .error .unusedBits ∧ decode 0x03040005 = .error .unusedBits ∧
    decode 0x04010001 = .error .unusedBits ∧ decode 0x07020000 = .error .unusedBits ∧
    decode 0x02010064 = .error .unusedBits := by decide

/-- V57, V66. -/
theorem test_decode_refuses_operands :
    decode 0x12030001 = .error .reservedSwitch ∧ decode 0x12000002 = .error .unusedBits ∧
    decode 0x1F070000 = .error .unmappedAddress ∧ decode 0x1F140000 = .error .unmappedAddress ∧
    decode 0x1F200000 = .error .unmappedAddress ∧ decode 0x1FFF0000 = .error .unmappedAddress ∧
    decode 0x1F020001 = .error .unusedBits := by decide

/-- The one check of well-formedness, at the edges of the mapped addresses (10_state.md R39), and RDREG of an
ill-formed address refused. -/
theorem test_wellFormed_rejects :
    (Instr.rdreg 0x06).wellFormed = true ∧ (Instr.rdreg 0x07).wellFormed = false ∧
    (Instr.rdreg 0x13).wellFormed = true ∧ (Instr.rdreg 0x14).wellFormed = false ∧
    (Instr.rdreg 0x17).wellFormed = false ∧ (Instr.rdreg 0x18).wellFormed = true ∧
    (Instr.rdreg 0x1F).wellFormed = true ∧ (Instr.rdreg 0x20).wellFormed = false ∧
    isRefused (exec (.rdreg 0x07) base) .unmappedRegister = true := by decide

/-- Words of R91, encoded and read as bytes, lowest first (20_memory.md R64). -/
theorem test_encode :
    encode (.move .clockwise 2000) = 0x030107D0 ∧ encode (.wrsw .division true) = 0x12020001 ∧
    encode (.wrthr (-1)) = 0x1100FFFF ∧ encode (.rdreg 0x11) = 0x1F110000 ∧
    bytesOfWord 0x030107D0 = [0xD0, 0x07, 0x01, 0x03] ∧
    decodeTableWord 32 0x030107D0 = some (.move .clockwise 2000) ∧ decodeTableWord 32 0x12030001 = none := by decide

/-! ### The driver -/

/-- V7, V10, V12, V17. -/
theorem test_setf_periods :
    completes (exec (.setf 128) base) (fun t => t.period == 7812 && t.duty == 3906) = true ∧
    completes (exec (.setf 128) evenTies) (fun t => t.period == 7811 && t.duty == 3906) = true ∧
    completes (exec (.setf 666) base) (fun t => t.period == 1501 && t.duty == 751) = true ∧
    completes (exec (.setf 65535) base) (fun t => t.period == 999 && t.duty == 500) = true := by decide

/-- V35. -/
theorem test_setf_zero_stops :
    completes (exec (.setf 0) moving) (fun t => !t.isMoving && !t.outCwEn && t.currentPulses == 4 &&
      t.targetPulses == 10 && t.countingEnabled && t.period == 4999 && t.trace == [.callback]) = true := by decide

/-- V31. -/
theorem test_move_starts :
    completes (exec (.move .clockwise 2000) base) (fun t => t.targetPulses == 2000 && t.period == 4999 &&
      t.duty == 2500 && t.outCwEn && !t.outCcwEn && t.tickIrqEn && t.targetSteps == 2000 &&
      readsAs t 0x03 0x4B) = true := by decide

/-- V39: a restart in the other direction, with no callback. -/
theorem test_move_restarts :
    completes (exec (.move .counterClockwise 3) moving) (fun t => t.currentPulses == 0 && t.targetPulses == 3 &&
      !t.outCwEn && t.outCcwEn && t.direction == .counterClockwise && t.trace == []) = true := by decide

/-- V37. -/
theorem test_cmove_keeps_the_count :
    completes (exec (.cmove .clockwise) moving) (fun t => t.currentPulses == 4 && t.currentSteps == 4 &&
      !t.countingEnabled && t.targetPulses == 65535 && !t.tickIrqEn && t.period == 4999) = true := by decide

/-- V38: the other output keeps its enable. -/
theorem test_cmove_both_outputs :
    completes (exec (.cmove .counterClockwise) { base with outCwEn := true, isMoving := true }) (fun t =>
      t.outCwEn && t.outCcwEn && t.direction == .counterClockwise) = true := by decide

/-- V40: the callback of a STOP while stopped, in both callback modes. -/
theorem test_stop_callback :
    completes (exec .stop { base with cbEn := true }) (fun t => t.trace == [.callback]) = true ∧
    completes (exec .stop { edgeOnly with cbEn := true }) (fun t => t.trace == []) = true := by decide

/-- V43: the backstop on an unreachable state. -/
theorem test_drvproc_backstop :
    completes (exec .drvproc { moving with currentPulses := 7, targetPulses := 5 }) (fun t =>
      t.currentSteps == 0 && !t.isMoving && t.trace == [.callback]) = true := by decide

/-- V32. -/
theorem test_drvproc_mirrors :
    completes (exec .drvproc moving) (fun t => t.currentSteps == 4 && t.isMoving) = true := by decide

/-- V44. -/
theorem test_drvinit :
    completes (exec .drvinit { moving with freq := 500, roundCount := 3 }) (fun t => t.period == 0 &&
      !t.cbEn && !t.outCwEn && t.targetSteps == 0 && t.freq == 500 && t.roundCount == 3 && t.trace == []) = true := by
  decide

/-- V30, V41: the last tick of a move stops it. -/
theorem test_tick_last :
    completes (exec .tick { moving with currentPulses := 9, tickPending := true }) (fun t =>
      t.currentPulses == 10 && !t.isMoving && !t.tickIrqEn && !t.tickPending && t.trace == [.callback]) = true := by
  decide

/-- V36: a tick while the interrupt is disabled is refused. -/
theorem test_tick_refused :
    isRefused (exec .tick { moving with tickIrqEn := false, tickPending := true }) .tickNotPending = true := by
  decide

/-- V41, V34. -/
theorem test_setcb_and_rstcnt :
    completes (exec (.setcb false) moving) (fun t => !t.cbEn) = true ∧
    completes (exec .rstcnt moving) (fun t => t.currentPulses == 0 && t.isMoving) = true := by decide

/-! ### The pulse clock -/

/-- V25: clockwise first. -/
theorem test_tmrupd_both_outputs :
    completes (exec .tmrupd { base with outCwEn := true, outCcwEn := true, tickCnt := 9 }) (fun t =>
      t.trace == [.pulse .cw, .pulse .ccw] && t.tickPending && t.tickCnt == 0) = true := by decide

/-- V26, V20. -/
theorem test_tmrcmp :
    completes (exec .tmrcmp moving) (fun t => t.cmpPending && t.trace == []) = true ∧
    isRefused (exec .tmrcmp base) .noOutputEnabled = true := by decide

/-- V22: the duty point, and one tick before the end. -/
theorem test_refclk_counts :
    completes (exec .refclk { moving with period := 999, duty := 500, tickCnt := 499 }) (fun t =>
      t.tickCnt == 500 && t.cmpPending && !t.tickPending) = true ∧
    completes (exec .refclk { moving with period := 999, duty := 500, tickCnt := 998 }) (fun t =>
      t.tickCnt == 999 && !t.cmpPending && t.trace == []) = true := by decide

/-- V23: the counter above a lowered period wraps. -/
theorem test_refclk_wraps :
    completes (exec .refclk { moving with period := 999, tickCnt := 1500 }) (fun t =>
      t.tickCnt == 0 && t.tickPending && t.trace == [.pulse .cw]) = true := by decide

/-! ### MotionState -/

/-- V54. -/
theorem test_wrfreq_clamps :
    completes (exec (.wrfreq 5000) base) (fun t => t.freq == 1000 && t.period == 0) = true ∧
    completes (exec (.wrfreq 0) base) (fun t => t.freq == 0) = true := by decide

/-- V55. -/
theorem test_wrthr_reads_signed :
    completes (exec (.wrthr (-32768)) base) (fun t => readsAs t 0x0A 0xFFFF8000) = true := by decide

/-- V56: the flag without its pin. -/
theorem test_wrsw :
    completes (exec (.wrsw .division true) { base with switchCurrent := true }) (fun t => t.swOut == 0 &&
      readsAs t 0x0B 0x00000005) = true := by decide

/-- V56. -/
theorem test_swsync :
    completes (exec .swsync { base with switchCurrent := true, switchDivision := true }) (fun t =>
      t.trace == [.switches true false true] && readsAs t 0x0B 0x00000505 &&
      swCurrentOut t && !swHoldoffOut t && swDivisionOut t) = true := by decide

/-- V52, V53: the slot of the index, which wraps. -/
theorem test_push :
    completes (exec (.push (-1)) { base with buf := #v[60, 60, 60, 60, 60, 60, 60, 60] }) (fun t =>
      t.bufIdx == 1 && readsAs t 0x18 0xFFFFFFFF && readsAs t 0x19 60) = true ∧
    completes (exec (.push 16) { base with bufIdx := 7 }) (fun t => t.bufIdx == 0 && readsAs t 0x1F 16) = true := by
  decide

/-- V60, V62. -/
theorem test_round_count_saturates :
    completes (exec .rinc { base with roundCount := 65535 }) (fun t => t.roundCount == 65535) = true ∧
    completes (exec .rinc { base with roundCount := 65534 }) (fun t => t.roundCount == 65535) = true ∧
    completes (exec .rdec base) (fun t => t.roundCount == 0) = true ∧
    completes (exec .rdec { base with roundCount := 65535 }) (fun t => t.roundCount == 65534) = true := by decide

/-- V65. -/
theorem test_mstick_wraps :
    completes (exec .mstick { base with nowMs := 0xFFFFFFFF }) (fun t => t.nowMs == 0) = true := by decide

/-- V64, V67, V68. -/
theorem test_rdreg_values :
    readsAs { base with roundCount := 65535 } 0x0D 0x0000FFFF = true ∧ readsAs base 0x11 0 = true ∧
    readsAs (inPhase .monitorCurrent) 0x11 0x00000303 = true ∧ readsAs base 0x09 0x000000C8 = true ∧
    readsAs { base with seqRunning := true } 0x11 0x00000100 = true := by decide

/-! ### The sequencer -/

/-- V80. -/
theorem test_start :
    completes (exec .start { base with nowMs := 7 }) (fun t => t.seqState == .setupSwitches && t.seqRunning &&
      t.phaseStart == 7 && readsAs t 0x11 0x00000301) = true ∧
    completes (exec .start { inPhase .setupSwitches with phaseStart := 7 }) (fun t => t.phaseStart == 7) = true := by
  decide

/-- V88. -/
theorem test_seqinit :
    completes (exec .seqinit { moving with seqState := .monitorCurrent, seqRunning := true, phaseStart := 3 })
      (fun t => t.seqState == .idle && !t.seqRunning && t.phaseStart == 0 && t.isMoving && t.outCwEn) = true := by
  decide

/-- V81, V82: the delay, and its wrap. -/
theorem test_seqproc_start_moving :
    completes (exec .seqproc { inPhase .startMoving with phaseStart := 0xFFFFFFF0, nowMs := 0x53, freq := 500 })
      (fun t => t.seqState == .startMoving && !t.isMoving) = true ∧
    completes (exec .seqproc { inPhase .startMoving with phaseStart := 0xFFFFFFF0, nowMs := 0x54, freq := 500 })
      (fun t => t.seqState == .monitorCurrent && t.isMoving && t.period == 1999 && t.phaseStart == 0x54) = true := by
  decide

/-- V73, V75: equal is not less; the comparison is signed. -/
theorem test_seqproc_monitor :
    completes (exec .seqproc { inPhase .monitorCurrent with buf := #v[49, 49, 49, 49, 49, 49, 49, 50] })
      (fun t => t.seqState == .monitorCurrent && t.phaseStart == 300) = true ∧
    completes (exec .seqproc
        { inPhase .monitorCurrent with buf := #v[-100, -32768, 0, 49, -1, 10, 20, 30] })
      (fun t => t.seqState == .adjustSwitches && t.phaseStart == 500) = true := by decide

/-! ### Reset, ports, scripts -/

/-- V92. -/
theorem test_reset :
    completes (exec .reset { moving with freq := 500, trace := [.callback], nowMs := 9 }) (fun t =>
      t.freq == 0 && t.nowMs == 0 && t.trace == [] && !t.outCwEn && t.direction == .stopped) = true := by decide

/-- The step fetches the word placed for it. -/
theorem test_step_runs_placed_word :
    completes (step (State.reset.withFetchWord 32 0x100001F4)) (fun t => t.freq == 500 && t.script == []) = true ∧
    isRefused (step (State.reset.withFetchWord 32 0)) (.reserved .undefinedOp) = true := by decide

/-- R86: an event word is no command. -/
theorem test_command_port :
    isRefused (step { base with script := [.cmdPort 0x89000000] }) .eventOnCommandPort = true ∧
    completes (step { base with script := [.cmdPort 0x07010000] }) (fun t => t.cbEn) = true := by decide

/-- A refused stimulus is reported and passed over, as TICK is in P2. -/
theorem test_applyAll_reports :
    (applyAll [.word 0x83000000, .rotInc, .word 0] base).2 = [.tickNotPending, .reserved .undefinedOp] ∧
    (applyAll [.word 0x83000000, .rotInc, .word 0] base).1.roundCount = 1 := by decide

/-- R91, R92: script lines. -/
theorem test_script_text :
    readScript ["MOVE CW, 2000 ; comment", "WRTHR -1", "RDREG SEQ_STATUS", "", "WRSW division, 1"] =
      some [.move .clockwise 2000, .wrthr (-1), .rdreg 0x11, .wrsw .division true] ∧
    readScript ["POLL", "PULSES 2", "SETF 0x1F4"] =
      some [.drvproc, .seqproc, .tmrupd, .tick, .tmrupd, .tick, .setf 500] ∧
    readScript ["MOVE CW"] = none := by decide

/-! ### Witnesses: for every statement with hypotheses, a state and operands that meet them together -/

/-- A state whose script begins with a given stimulus. -/
def withStimulus (x : Stimulus) : State := { base with script := [x, .msTick] }

theorem witness_EncodedInstructionDecodesBack :
    (Instr.rdreg 0x1F).wellFormed = true ∧ (Instr.move .invalid 65535).wellFormed = true := by decide

theorem witness_DecodedWordEncodesBack :
    decode 0x0303FFFF = .ok (.move .invalid 65535) ∧ decode 0x1F1F0000 = .ok (.rdreg 0x1F) := by decide

theorem witness_TableRowsDecideDecoding :
    Instr.wrsw .current false ∈ tableForms ∧ RowMatches (.wrsw .current false) 0x12020001 ∧
    decode 0x12020001 = .ok (.wrsw .division true) := by
  refine ⟨by decide, ⟨by decide, ?_⟩, by decide⟩
  show (aField 0x12020001).extractLsb' 0 2 ≠ 3
  decide

theorem witness_ReservedWordsRefused :
    (∀ r ∈ tableForms, opField 0x09000000 ≠ opField r.tableRow.1) ∧
    Instr.stop ∈ tableForms ∧ opField 0x05000001 = opField Instr.stop.tableRow.1 ∧
    0x05000001 &&& Instr.stop.tableRow.2 ≠ Instr.stop.tableRow.1 ∧
    opField 0x12030001 = 0x12 ∧ (aField 0x12030001).extractLsb' 0 2 = 3 ∧
    opField 0x1F200000 = 0x1F ∧ mappedAddr (aField 0x1F200000) = false ∧
    (withStimulus (.word 0)).script = .word 0 :: [.msTick] ∧ decode 0 = .error .undefinedOp := by decide

theorem witness_EventBitNamesTheAgent : decode 0x8B000000 = .ok .mstick := by decide

theorem witness_WordBytesLittleEndian :
    decode 0x8B000000 = .ok .mstick ∧ decode 0x8C000000 = .error .undefinedOp := by decide

theorem witness_StepRunsDecodedInstruction :
    (withStimulus (.word 0x05000000)).script = .word 0x05000000 :: [.msTick] ∧
    decode 0x05000000 = .ok .stop := by decide

theorem witness_PortsRunTheirOperations :
    (withStimulus (.cmdPort 0x05000000)).script = .cmdPort 0x05000000 :: [.msTick] ∧
    (0x05000000#32).getLsbD 31 = false ∧ decode 0x05000000 = .ok .stop ∧
    (withStimulus (.cmdPort 0x00000000)).script = .cmdPort 0x00000000 :: [.msTick] ∧
    (0x00000000#32).getLsbD 31 = false ∧ decode 0x00000000 = .error .undefinedOp ∧
    (withStimulus (.cmdPort 0x89000000)).script = .cmdPort 0x89000000 :: [.msTick] ∧
    (0x89000000#32).getLsbD 31 = true ∧
    (withStimulus .rst).script = .rst :: [.msTick] ∧ (withStimulus .refTick).script = .refTick :: [.msTick] ∧
    (withStimulus (.smpValid 7)).script = .smpValid 7 :: [.msTick] ∧
    (withStimulus .rotInc).script = .rotInc :: [.msTick] ∧
    (withStimulus .rotDec).script = .rotDec :: [.msTick] ∧
    (withStimulus .msTick).script = .msTick :: [.msTick] := by decide

theorem witness_WaitingBlockUnchanged : base.script = [] := by decide

theorem witness_ScriptRunsAsItsOperations :
    (∀ i ∈ [Instr.rinc, .rdreg 0x0D], i.wellFormed = true) ∧
    (∃ t, execAll [.rinc, .rdreg 0x0D] { base with script := [.msTick] } = .next t) ∧
    (∀ i ∈ [Instr.rinc, .tick], i.wellFormed = true) ∧
    execAll [.rinc, .tick] { base with script := [.msTick] } = .refused .tickNotPending ∧
    step { base with script := .word 0x83000000 :: [.rotInc] } = .refused .tickNotPending ∧
    (∃ t, step { base with script := .rotInc :: [.word 0x83000000] } = .next t) :=
  ⟨by decide, ⟨_, rfl⟩, by decide, rfl, rfl, ⟨_, rfl⟩⟩

theorem witness_EveryOtherAgentAlwaysEnabled :
    (Instr.rdreg 0x00).wellFormed = true ∧ (Instr.rdreg 0x00).agent ≠ .tmr := by decide

theorem witness_TmrupdAndTmrcmpResult :
    { base with outCcwEn := true }.outCwEn = true ∨ { base with outCcwEn := true }.outCcwEn = true := by decide

theorem witness_StopResult :
    base.outCwEn = false ∧ base.outCcwEn = false ∧ moving.outCwEn = true ∧ pulseCw moving = true ∧
    (∃ t, exec .stop moving = .next t) := ⟨rfl, rfl, rfl, rfl, ⟨_, rfl⟩⟩

theorem witness_RefclkResult :
    moving.outCwEn = true ∧
    { moving with tickCnt := 4999 }.period.toNat ≤ { moving with tickCnt := 4999 }.tickCnt.toNat ∧
    { moving with tickCnt := 4998 }.tickCnt.toNat < { moving with tickCnt := 4998 }.period.toNat := by decide

theorem witness_TickSourceRefusedUnlessReady :
    base.outCwEn = false ∧ base.outCcwEn = false ∧
    { moving with tickPending := true, tickIrqEn := false }.tickIrqEn = false ∧ moving.tickPending = false := by
  decide

theorem witness_PeriodLastsItsReferenceTicks :
    moving.outCwEn = true ∧ moving.tickCnt = 0 ∧ moving.period ≠ 0 ∧ 4999 ≤ moving.period.toNat := by decide

theorem witness_ReferenceLevelRefinesEventLevel :
    (∀ i ∈ [Instr.refclk, .start], referenceLevel i = true) ∧
    ∃ t, execAll [.refclk, .start] { moving with tickCnt := 4999 } = .next t :=
  ⟨by decide, _, rfl⟩

theorem witness_InvalidParametersDegrade :
    1000 < (1001 : U16).toNat ∧
    ((0 : U16) = 0 ∨ Direction.clockwise = .stopped ∨ Direction.clockwise = .invalid) ∧
    ((5 : U16) = 0 ∨ Direction.invalid = .stopped ∨ Direction.invalid = .invalid) ∧
    (Direction.stopped = .stopped ∨ Direction.stopped = .invalid) := by decide

theorem witness_SetfProgramsRoundedPeriod : (1 : U16) ≠ 0 ∧ (65535 : U16) ≠ 0 := by decide

theorem witness_TieRuleMattersAtTwoFrequencies :
    (∃ t u, (640 : U16) ≠ 0 ∧
      exec (.setf 640) { base with params := { base.params with roundTies := .halfUp } } = .next t ∧
      exec (.setf 640) { base with params := { base.params with roundTies := .halfEven } } = .next u) ∧
    (∃ t u, (128 : U16) ≠ 0 ∧
      exec (.setf 128) { base with params := { base.params with roundTies := .halfUp } } = .next t ∧
      exec (.setf 128) { base with params := { base.params with roundTies := .halfEven } } = .next u) ∧
    (∃ t u, (129 : U16) ≠ 0 ∧ (129 : U16) ≠ 128 ∧ (129 : U16) ≠ 640 ∧
      exec (.setf 129) { base with params := { base.params with roundTies := .halfUp } } = .next t ∧
      exec (.setf 129) { base with params := { base.params with roundTies := .halfEven } } = .next u) :=
  ⟨⟨_, _, by decide, rfl, rfl⟩, ⟨_, _, by decide, rfl, rfl⟩, ⟨_, _, by decide, by decide, by decide, rfl, rfl⟩⟩

theorem witness_PeriodNonIncreasingInFrequency :
    (1 : U16) ≠ 0 ∧ (1 : U16).toNat ≤ (65535 : U16).toNat ∧
    ∃ t u, exec (.setf 1) base = .next t ∧ exec (.setf 65535) base = .next u :=
  ⟨by decide, by decide, _, _, rfl, rfl⟩

theorem witness_MoveResult :
    (65535 : U16) ≠ 0 ∧ (Direction.counterClockwise = .clockwise ∨ Direction.counterClockwise = .counterClockwise) := by
  decide

theorem witness_CmoveResult :
    Direction.clockwise = .clockwise ∨ Direction.clockwise = .counterClockwise := by decide

theorem witness_DrvprocResult :
    base.isMoving = false ∧
    { moving with currentPulses := 9 }.isMoving = true ∧
    { moving with currentPulses := 9 }.currentPulses.toNat < { moving with currentPulses := 9 }.targetPulses.toNat ∧
    { moving with currentPulses := 10 }.isMoving = true ∧ { moving with currentPulses := 10 }.countingEnabled = true ∧
    { moving with currentPulses := 10 }.targetPulses.toNat ≤ { moving with currentPulses := 10 }.currentPulses.toNat := by
  decide

theorem witness_TickResult :
    { moving with tickPending := true }.tickIrqEn = true ∧ { moving with tickPending := true }.tickPending = true ∧
    { moving with tickPending := true }.countingEnabled = true ∧
    (5 : U16).toNat = ({ moving with tickPending := true }.currentPulses.toNat + 1) % 65536 ∧
    (5 : U16).toNat < { moving with tickPending := true }.targetPulses.toNat ∧
    { moving with tickPending := true, targetPulses := 5 }.targetPulses.toNat ≤ (5 : U16).toNat ∧
    { moving with tickPending := true, countingEnabled := false }.countingEnabled = false := by decide

theorem witness_CountingLaw :
    (2 : U16) ≠ 0 ∧
    (∀ i ∈ [Instr.tmrupd, .tick, .rinc, .tmrupd, .tick], leavesDriverAlone i = true) ∧
    ∃ m t, exec (.move .clockwise 2) base = .next m ∧
      execAll [.tmrupd, .tick, .rinc, .tmrupd, .tick] m = .next t ∧
      [Instr.tmrupd, .tick, .rinc, .tmrupd, .tick].count .tick = (2 : U16).toNat :=
  ⟨by decide, by decide, _, _, rfl, rfl, rfl⟩

theorem witness_PulsesCompleteAMove :
    (1 : U16) ≠ 0 ∧ (Direction.clockwise = .clockwise ∨ Direction.clockwise = .counterClockwise) := by decide

theorem witness_BufferLaw :
    [10, 20, 30, 40, 50, 60, 70, 80, 90].length ≤ 1 + 8 ∧ 8 < [10, 20, 30, 40, 50, 60, 70, 80, 90].length ∧
    [10, 20, 30].length ≤ 3 ∧ 3 < 8 := by decide

theorem witness_RoundCountFolds : ∀ i ∈ [Instr.rdec, .rinc, .rdec], i = .rinc ∨ i = .rdec := by decide

theorem witness_MstickResult :
    Instr.rinc ≠ .mstick ∧ Instr.rinc ≠ .reset ∧ ∃ t, exec .rinc base = .next t := ⟨by decide, by decide, _, rfl⟩

theorem witness_RdregCompletesWhenMapped :
    mappedAddr 0x06 = true ∧ mappedAddr 0x07 = false ∧ mappedAddr 0x1F = true ∧ mappedAddr 0x20 = false := by decide

theorem witness_RegisterReadValues : 7 < 8 := by decide

theorem witness_RoundCountReadByNoOtherOperation :
    Instr.tick ≠ .rinc ∧ Instr.tick ≠ .rdec ∧ Instr.tick ≠ .reset ∧ Instr.tick ≠ .rdreg 0x0D ∧
    ∃ t, exec .tick { moving with tickPending := true } = .next t :=
  ⟨by decide, by decide, by decide, by decide, _, rfl⟩

theorem witness_SeqinitAndStartResult :
    (inPhase .finalMove).seqRunning = true ∧ base.seqRunning = false := by decide

theorem witness_SwitchPhases :
    (inPhase .setupSwitches).seqRunning = true ∧ (inPhase .setupSwitches).seqState = .setupSwitches ∧
    (inPhase .adjustSwitches).seqRunning = true ∧ (inPhase .adjustSwitches).seqState = .adjustSwitches := by decide

theorem witness_StartMovingPhase :
    (inPhase .startMoving).seqRunning = true ∧ (inPhase .startMoving).seqState = .startMoving ∧
    millisSince 0xFFFFFFF0 0x53 < 100 ∧ 100 ≤ millisSince 0xFFFFFFF0 0x54 ∧
    { inPhase .startMoving with freq := 500 }.freq ≠ 0 ∧ (inPhase .startMoving).freq = 0 ∧
    100 ≤ millisSince (inPhase .startMoving).phaseStart (inPhase .startMoving).nowMs := by decide

theorem witness_MonitorCurrentPhase :
    (inPhase .monitorCurrent).seqRunning = true ∧ (inPhase .monitorCurrent).seqState = .monitorCurrent ∧
    (∀ (k : Nat) (hk : k < 8), (inPhase .monitorCurrent).buf[k].toInt < (inPhase .monitorCurrent).threshold.toInt) ∧
    ∃ (k : Nat) (hk : k < 8), { inPhase .monitorCurrent with threshold := 0 }.threshold.toInt ≤
      { inPhase .monitorCurrent with threshold := 0 }.buf[k].toInt :=
  ⟨by decide, by decide, by decide, 7, by decide, by decide⟩

theorem witness_FinalMovePhase :
    (inPhase .finalMove).seqRunning = true ∧ (inPhase .finalMove).seqState = .finalMove ∧
    millisSince { inPhase .finalMove with phaseStart := 451 }.phaseStart 500 < 50 ∧
    50 ≤ millisSince { inPhase .finalMove with phaseStart := 450 }.phaseStart 500 := by decide

theorem witness_CompleteAndIdlePhases :
    base.seqRunning = false ∧
    (inPhase .complete).seqRunning = true ∧ (inPhase .complete).seqState = .complete ∧
    (inPhase .complete).isMoving = false ∧ { inPhase .complete with isMoving := true }.isMoving = true ∧
    (inPhase .idle).seqState = .idle ∧ (inPhase .unrecognized).seqState = .unrecognized := by decide

theorem witness_PhaseAdvancesInOrder :
    SequencerConsistent (inPhase .setupSwitches) ∧
    ∃ t, exec .seqproc (inPhase .setupSwitches) = .next t ∧ t.seqState ≠ (inPhase .setupSwitches).seqState :=
  ⟨⟨by decide, by decide⟩, _, rfl, by decide⟩

theorem witness_StallPersists :
    { inPhase .monitorCurrent with threshold := 0 }.seqState = .monitorCurrent ∧
    { inPhase .monitorCurrent with threshold := 0 }.seqRunning = true ∧
    (∃ t, exec .seqproc { inPhase .monitorCurrent with threshold := 0 } = .next t) ∧
    ∃ (k : Nat) (hk : k < 8), { inPhase .monitorCurrent with threshold := 0 }.threshold.toInt ≤
      { inPhase .monitorCurrent with threshold := 0 }.buf[k].toInt :=
  ⟨by decide, by decide, ⟨_, rfl⟩, 0, by decide, by decide⟩

theorem witness_ElapsedCountsMilliseconds :
    { base with nowMs := 0xFFFFFFF0 }.seqRunning = false ∧ 100 < 4294967296 := by decide

theorem witness_EnabledAfterReset : Instr.refclk.wellFormed = true ∧ (Instr.rdreg 0x1F).wellFormed = true := by decide

/-- A consistent state in the middle of a bounded move. -/
theorem moving_inv : Inv moving where
  sequencer := ⟨by decide, by decide⟩
  mirror    := ⟨by decide, by decide, by decide⟩
  quiet     := ⟨by decide, by decide⟩
  counting  := ⟨by decide, by decide⟩
  ranges    := ⟨by decide, by decide, by decide⟩

theorem witness_StepKeepsConsistency : Inv moving ∧ ∃ t, step moving = .next t := ⟨moving_inv, _, rfl⟩

/-- The same state with a tick pending. -/
theorem witness_ConsistentStateConsequences :
    Inv { moving with tickPending := true } ∧ { moving with tickPending := true }.isMoving = true ∧
    (∃ t, exec .tick { moving with tickPending := true } = .next t) ∧
    ∃ v, ReadsAs { moving with tickPending := true } 0x11 v :=
  ⟨⟨⟨by decide, by decide⟩, ⟨by decide, by decide, by decide⟩, ⟨by decide, by decide⟩, ⟨by decide, by decide⟩,
    ⟨by decide, by decide, by decide⟩⟩, by decide, ⟨_, rfl⟩, _, rfl⟩

theorem witness_DriverRegisterWriters :
    ∃ t, exec .drvinit moving = .next t ∧ t.direction ≠ moving.direction ∧ t.targetPulses ≠ moving.targetPulses ∧
      t.currentPulses ≠ moving.currentPulses ∧ t.isMoving ≠ moving.isMoving ∧
      t.countingEnabled ≠ moving.countingEnabled ∧ t.cbEn ≠ moving.cbEn ∧ t.period ≠ moving.period ∧
      t.tickIrqEn ≠ moving.tickIrqEn ∧ t.outCwEn ≠ moving.outCwEn :=
  ⟨_, rfl, by decide, by decide, by decide, by decide, by decide, by decide, by decide, by decide, by decide⟩

theorem witness_DriverRegisterWriters_tick :
    ∃ t, exec .drvinit { moving with tickCnt := 5, tickPending := true, cmpPending := true } = .next t ∧
      t.tickCnt ≠ 5 ∧ t.tickPending ≠ true ∧ t.cmpPending ≠ true :=
  ⟨_, rfl, by decide, by decide, by decide⟩

theorem witness_MotionRegisterWriters :
    (∃ t, exec (.wrfreq 500) base = .next t ∧ t.freq ≠ base.freq) ∧
    (∃ t, exec (.wrthr 1) base = .next t ∧ t.threshold ≠ base.threshold) ∧
    (∃ t, exec (.wrsw .current true) base = .next t ∧ t.switchCurrent ≠ base.switchCurrent) ∧
    (∃ t, exec (.wrsw .holdoff true) base = .next t ∧ t.switchHoldoff ≠ base.switchHoldoff) ∧
    (∃ t, exec (.wrsw .division true) base = .next t ∧ t.switchDivision ≠ base.switchDivision) ∧
    (∃ t, exec .swsync { base with switchHoldoff := true } = .next t ∧ t.swOut ≠ base.swOut) ∧
    (∃ t, exec (.push 1) base = .next t ∧ t.bufIdx ≠ base.bufIdx) ∧
    (∃ t, exec .rinc base = .next t ∧ t.roundCount ≠ base.roundCount) ∧
    (∃ t, exec .stop moving = .next t ∧ t.motorMoving ≠ moving.motorMoving) ∧
    (∃ t, exec .start base = .next t ∧ t.seqState ≠ base.seqState) ∧
    (∃ t, exec .mstick base = .next t ∧ t.nowMs ≠ base.nowMs) :=
  ⟨⟨_, rfl, by decide⟩, ⟨_, rfl, by decide⟩, ⟨_, rfl, by decide⟩, ⟨_, rfl, by decide⟩, ⟨_, rfl, by decide⟩,
   ⟨_, rfl, by decide⟩, ⟨_, rfl, by decide⟩, ⟨_, rfl, by decide⟩, ⟨_, rfl, by decide⟩, ⟨_, rfl, by decide⟩,
   ⟨_, rfl, by decide⟩⟩

theorem witness_TraceGrowsByAtMostOneCallback :
    Instr.stop ≠ .reset ∧ ∃ t, exec .stop moving = .next t ∧ callbacks t.trace = 1 := ⟨by decide, _, rfl, by decide⟩

theorem witness_CompareFlagReadByNoRule :
    Instr.rdreg 0x06 ≠ .rdreg 0x03 ∧ ∃ t, exec (.rdreg 0x06) moving = .next t := ⟨by decide, _, rfl⟩

end Sys2Proof.Tests
end

section
/-! PROOFS. The family of 30_encoding.md: a decoded word is its operation's own encoding, in its operation's row of
the opcode table; reserved words (R88) and invalid parameters (R89). -/

namespace Sys2Proof

open Sys2Proof.Safety Sys2Proof.Laws

/-! ### Whatever decodes is the encoding of what it decodes to (30_encoding.md R82, R85) -/

/-- The operation `i` is well formed and its word has these three fields. -/
def Instr.HasFields (i : Instr) (op a : Byte) (imm : U16) : Prop :=
  i.wellFormed = true ∧ encode i = packWord op a imm

/-- A field of `k` operand bits with zero bits above them is its low `k` bits, zero-extended. -/
theorem setWidth_extractLsb'_of_ushiftRight_eq_zero {n k : Nat} {x : BitVec n} (h : x >>> k = 0) :
    (x.extractLsb' 0 k).setWidth n = x := by
  apply BitVec.eq_of_getLsbD_eq
  intro j hj
  rw [BitVec.getLsbD_setWidth, BitVec.getLsbD_extractLsb', Nat.zero_add]
  by_cases hk : j < k
  · simp [hj, hk]
  · have hzero : (x >>> k).getLsbD (j - k) = false := by simp [h]
    rw [BitVec.getLsbD_ushiftRight, Nat.add_sub_of_le (by omega)] at hzero
    simp [hk, hzero]

/-- A field with zero bits above bit 0 is that bit, zero-extended. -/
theorem setWidth_ofBool_of_ushiftRight_eq_zero {n : Nat} {x : BitVec n} (h : x >>> 1 = 0) :
    (BitVec.ofBool (x.getLsbD 0)).setWidth n = x := by
  have hbit : BitVec.ofBool (x.getLsbD 0) = x.extractLsb' 0 1 := by
    ext j hj
    obtain rfl : j = 0 := by omega
    simp
  rw [hbit, setWidth_extractLsb'_of_ushiftRight_eq_zero h]

/-- A direction operand encodes to the field it was read from. -/
theorem Direction.setWidth_bits_ofBits {a : Byte} (h : a >>> 2 = 0) :
    (Direction.ofBits (a.extractLsb' 0 2)).bits.setWidth 8 = a := by
  rw [Direction.bits_ofBits, setWidth_extractLsb'_of_ushiftRight_eq_zero h]

/-- A switch name has the bits it was read from. -/
theorem SwitchName.bits_of_ofBits_eq_some :
    ∀ {b : BitVec 2} {n : SwitchName}, SwitchName.ofBits b = some n → n.bits = b := by
  have h : ∀ b : BitVec 2, ∀ n ∈ SwitchName.ofBits b, n.bits = b := by decide
  exact fun {b n} hn => h b n hn

/-- WRSW decodes a word of its own fields only. -/
theorem decodeWrsw_hasFields {a : Byte} {imm : U16} {i : Instr} (h : decodeWrsw a imm = .ok i) :
    i.HasFields 0x12 a imm := by
  unfold decodeWrsw at h
  split at h
  · rename_i name hname
    obtain ⟨⟨ha, himm⟩, rfl⟩ := formatAI_ok.mp h
    refine ⟨rfl, congrArg₂ (packWord 0x12) ?_ (setWidth_ofBool_of_ushiftRight_eq_zero himm)⟩
    rw [SwitchName.bits_of_ofBits_eq_some hname, setWidth_extractLsb'_of_ushiftRight_eq_zero ha]
  · nomatch h

/-- RDREG decodes a word of its own fields only, its address mapped. -/
theorem decodeRdreg_hasFields {a : Byte} {imm : U16} {i : Instr} (h : decodeRdreg a imm = .ok i) :
    i.HasFields 0x1F a imm := by
  unfold decodeRdreg at h
  split at h
  · rename_i hmapped
    obtain ⟨⟨-, rfl⟩, rfl⟩ := formatA_ok.mp h
    exact ⟨hmapped, rfl⟩
  · nomatch h

/-- Every row of the decoder answers an operation whose word has the fields the row was applied to: one case per
format, and one per row that has operands in `a`. -/
theorem decodeFields_hasFields {op a : Byte} {imm : U16} {i : Instr} (h : decodeFields op a imm = .ok i) :
    i.HasFields op a imm := by
  have op_eq : ∀ {n : Nat}, op.toNat = n → op = BitVec.ofNat 8 n := by
    rintro _ rfl
    simp
  unfold decodeFields at h
  split at h
  -- format N: no operands
  case h_1 hop | h_5 hop | h_6 hop | h_8 hop | h_12 hop | h_14 hop | h_15 hop | h_16 hop | h_17 hop | h_18 hop
      | h_19 hop | h_20 hop | h_21 hop | h_23 hop | h_24 hop | h_25 hop =>
    obtain rfl := op_eq hop
    obtain ⟨⟨rfl, rfl⟩, rfl⟩ := formatN_ok.mp h
    exact ⟨rfl, rfl⟩
  -- format I: the operand is `imm`
  case h_2 hop | h_9 hop | h_10 hop | h_22 hop =>
    obtain rfl := op_eq hop
    obtain ⟨rfl, rfl⟩ := formatI_ok.mp h
    exact ⟨rfl, rfl⟩
  -- MOVE
  case h_3 hop =>
    obtain rfl := op_eq hop
    obtain ⟨⟨ha, -⟩, rfl⟩ := formatAI_ok.mp h
    exact ⟨rfl, congrArg (packWord 0x03 · imm) (Direction.setWidth_bits_ofBits ha)⟩
  -- CMOVE
  case h_4 hop =>
    obtain rfl := op_eq hop
    obtain ⟨⟨ha, rfl⟩, rfl⟩ := formatA_ok.mp h
    exact ⟨rfl, congrArg (packWord 0x04 · 0) (Direction.setWidth_bits_ofBits ha)⟩
  -- SETCB
  case h_7 hop =>
    obtain rfl := op_eq hop
    obtain ⟨⟨ha, rfl⟩, rfl⟩ := formatA_ok.mp h
    exact ⟨rfl, congrArg (packWord 0x07 · 0) (setWidth_ofBool_of_ushiftRight_eq_zero ha)⟩
  -- WRSW
  case h_11 hop =>
    obtain rfl := op_eq hop
    exact decodeWrsw_hasFields h
  -- RDREG
  case h_13 hop =>
    obtain rfl := op_eq hop
    exact decodeRdreg_hasFields h
  -- no row
  case h_26 => nomatch h

/-- What a word decodes to encodes back to that word. -/
theorem encode_of_decode {w : U32} {i : Instr} (h : decode w = .ok i) : encode i = w := by
  obtain ⟨-, hword⟩ := decodeFields_hasFields h
  rw [hword, packWord_fields]

/-! ### The rows of the opcode table (30_encoding.md R85) -/

/-- The word of every operation lies in its row and in its agent's half of the opcode space (R84). -/
theorem encode_in_tableRow : ∀ i : Instr, TableWord.Statement i
  | .drvinit        => TableWord.drvinit
  | .setf hz        => TableWord.setf hz
  | .move dir steps => TableWord.move dir steps
  | .cmove dir      => TableWord.cmove dir
  | .stop           => TableWord.stop
  | .drvproc        => TableWord.drvproc
  | .setcb en       => TableWord.setcb en
  | .rstcnt         => TableWord.rstcnt
  | .wrfreq hz      => TableWord.wrfreq hz
  | .wrthr thr      => TableWord.wrthr thr
  | .wrsw name val  => TableWord.wrsw name val
  | .swsync         => TableWord.swsync
  | .rdreg addr     => TableWord.rdreg addr
  | .seqinit        => TableWord.seqinit
  | .start          => TableWord.start
  | .seqproc        => TableWord.seqproc
  | .reset          => TableWord.reset
  | .tmrupd         => TableWord.tmrupd
  | .tmrcmp         => TableWord.tmrcmp
  | .tick           => TableWord.tick
  | .refclk         => TableWord.refclk
  | .push sample    => TableWord.push sample
  | .rinc           => TableWord.rinc
  | .rdec           => TableWord.rdec
  | .mstick         => TableWord.mstick

/-- A word matches the row of the operation it decodes to. -/
theorem masked_eq_of_decode {w : U32} {i : Instr} (h : decode w = .ok i) :
    w &&& i.tableRow.2 = i.tableRow.1 := by
  obtain ⟨hrow, -⟩ := encode_in_tableRow i
  rwa [encode_of_decode h] at hrow

/-- An operation's word has the `op` of its row. -/
theorem opField_encode (i : Instr) : opField (encode i) = opField i.tableRow.1 := by
  cases i <;> simp only [encode, Instr.tableRow, opField_packWord] <;> rfl

/-- The row of every operation is among the 25 of the table. -/
theorem tableRow_mem (i : Instr) : i.tableRow ∈ tableForms.map Instr.tableRow := by
  cases i <;> simp [tableForms, Instr.tableRow]

/-- No two rows of the table share an `op`. -/
theorem nodup_tableRow_op : ((tableForms.map Instr.tableRow).map (opField ·.1)).Nodup := by decide

/-- Operations whose rows have the same `op` are of the same row. -/
theorem tableRow_eq_of_opField_eq {i j : Instr} (h : opField i.tableRow.1 = opField j.tableRow.1) :
    i.tableRow = j.tableRow :=
  List.inj_on_of_nodup_map nodup_tableRow_op (tableRow_mem i) (tableRow_mem j) h

/-! ### The classes of reserved words (30_encoding.md R88) -/

/-- A word whose `op` is that of no row is reserved: the decoder knows the `op`s of the table only. -/
theorem decode_undefinedOp {w : U32} (h : ∀ r ∈ tableForms, opField w ≠ opField r.tableRow.1) :
    decode w = .error .undefinedOp := by
  have hop : (opField w).toNat ∉ tableForms.map (fun r => (opField r.tableRow.1).toNat) := by
    rw [List.mem_map]
    rintro ⟨r, hr, heq⟩
    exact h r hr (BitVec.eq_of_toNat_eq heq.symm)
  unfold decode decodeFields
  split
  case h_26 => rfl
  all_goals
    rename_i hrow
    rw [hrow] at hop
    exact absurd (by decide) hop

/-- A word of a defined `op` that its row's mask does not take to the row's match is reserved: were it decoded, it
would match the one row of its `op`. -/
theorem decode_error_of_masked_ne {w : U32} {r : Instr} (hop : opField w = opField r.tableRow.1)
    (hmask : w &&& r.tableRow.2 ≠ r.tableRow.1) : ∃ e, decode w = .error e := by
  match hdec : decode w with
  | .error e => exact ⟨e, rfl⟩
  | .ok i =>
    have hrow : r.tableRow = i.tableRow := by
      apply tableRow_eq_of_opField_eq
      rw [← hop, ← opField_encode, encode_of_decode hdec]
    exact absurd (hrow ▸ masked_eq_of_decode hdec) hmask

/-- WRSW with `name = 3` is reserved, whatever its other bits. -/
theorem decode_reservedSwitch {w : U32} (hop : opField w = 0x12) (hname : (aField w).extractLsb' 0 2 = 3) :
    decode w = .error .reservedSwitch := by
  have hrow : decode w = decodeWrsw (aField w) (immField w) := by rw [decode, hop]; rfl
  rw [hrow, decodeWrsw, hname]
  rfl

/-- RDREG of an unmapped address is reserved, whatever its `imm`. -/
theorem decode_unmappedAddress {w : U32} (hop : opField w = 0x1F) (haddr : mappedAddr (aField w) = false) :
    decode w = .error .unmappedAddress := by
  have hrow : decode w = decodeRdreg (aField w) (immField w) := by rw [decode, hop]; rfl
  rw [hrow, decodeRdreg, haddr]
  rfl

end Sys2Proof

namespace Sys2Proof.Machine

open Sys2Proof

/-- A step refuses the stimulus that the fetch cannot read. -/
theorem step_refused_of_readStimulus {s : State} {x : Stimulus} {rest : List Stimulus} {r : Refusal}
    (hs : s.script = x :: rest) (hx : readStimulus x = .error r) : step s = .refused r := by
  simp [step, fetch, hs, hx]

/-- A reserved word is refused by its class. -/
theorem readWord_reserved {w : U32} {e : DecodeError} (h : decode w = .error e) :
    readWord w = .error (.reserved e) := by
  simp [readWord, h]

/-- Settles O5: a decoded word is its operation's encoding, so it matches the one row of its `op`, and a word that does
not match it cannot decode; the other classes are read off the decoder. -/
theorem reservedWordsRefused : Obligations.ReservedWordsRefused :=
  ⟨fun _ => decode_undefinedOp, fun _ _ _ => decode_error_of_masked_ne, fun _ => decode_reservedSwitch,
    fun _ => decode_unmappedAddress, decode_undefinedOp (by decide),
    fun _ _ _ _ hs he => step_refused_of_readStimulus hs (readWord_reserved he)⟩

/-! ### Invalid parameters (30_encoding.md R89) -/

/-- The two directions that ask for no motion. -/
theorem asksMotion_eq_false {d : Direction} (h : d = .stopped ∨ d = .invalid) : asksMotion d = false := by
  rcases h with rfl | rfl <;> rfl

/-- MOVE with no steps or no direction of motion executes as STOP. -/
theorem exec_move_degraded {d : Direction} {n : U16} (h : n = 0 ∨ d = .stopped ∨ d = .invalid) (s : State) :
    exec (.move d n) s = exec .stop s :=
  congrArg Host.Outcome.next (boundedMove_degraded (h.imp_right asksMotion_eq_false) s)

/-- CMOVE with no direction of motion executes as STOP. -/
theorem exec_cmove_degraded {d : Direction} (h : d = .stopped ∨ d = .invalid) (s : State) :
    exec (.cmove d) s = exec .stop s :=
  congrArg Host.Outcome.next (continueMove_degraded (asksMotion_eq_false h) s)

/-- A frequency above 1000 is clamped to what 1000 is clamped to. -/
theorem clampFreq_of_gt {hz : U16} (h : 1000 < hz.toNat) : clampFreq hz = clampFreq 1000 := by
  have h1000 : (1000 : U16).toNat = 1000 := rfl
  apply BitVec.eq_of_toNat_eq
  rw [clampFreq_toNat, clampFreq_toNat]
  omega

/-- SETF above 1000 does what it does at 1000. -/
theorem exec_setf_of_gt {hz : U16} (h : 1000 < hz.toNat) (s : State) : exec (.setf hz) s = exec (.setf 1000) s := by
  have hne : hz ≠ 0 := by
    rintro rfl
    exact absurd h (by decide)
  apply congrArg Host.Outcome.next
  rw [setFrequency_nonzero hne, setFrequency_nonzero (by decide), clampFreq_of_gt h]

/-- WRFREQ above 1000 does what it does at 1000. -/
theorem exec_wrfreq_of_gt {hz : U16} (h : 1000 < hz.toNat) (s : State) :
    exec (.wrfreq hz) s = exec (.wrfreq 1000) s :=
  congrArg (fun f : U16 => (.next { s with freq := f } : Result)) (clampFreq_of_gt h)

/-- Settles O20: the degraded forms are `Stop()` by the driver's own procedures, and the clamp takes every frequency
above 1000 to the same one. -/
theorem invalidParametersDegrade : Obligations.InvalidParametersDegrade := fun s =>
  ⟨fun _ _ h => exec_move_degraded h s, fun _ h => exec_cmove_degraded h s,
    congrArg Host.Outcome.next (setFrequency_zero s), ⟨_, rfl⟩,
    fun _ h => ⟨exec_setf_of_gt h s, exec_wrfreq_of_gt h s, ⟨_, rfl⟩, ⟨_, rfl⟩⟩⟩

end Sys2Proof.Machine
end

section
/-! PROOFS. The family of 40_pulse_clock.md: SETF programs the rounded period (R100 to R102, R122); the steps of the
tick source while an output is enabled (R104 to R106). -/

namespace Sys2Proof.Machine

open Sys2Proof Sys2Proof.Safety

/-! ### The programmed period and duty (40_pulse_clock.md R100 to R102) -/

/-- The duty of a clamped frequency is half of the rounded quotient: the period's `- 1` and the duty's `+ 1` cancel,
because the quotient is not 0. -/
theorem dutyOf_periodOf (ties : RoundTies) {f : U16} (h1 : 1 ≤ f.toNat) (h2 : f.toNat ≤ 1000) :
    dutyOf (periodOf ties f) = BitVec.ofNat 32 (roundQuotient ties 1000000 f.toNat / 2) := by
  obtain ⟨hpos, -⟩ := roundsTo_range (roundQuotient_spec ties 1000000 f.toNat h1) h1 h2
  unfold dutyOf
  rw [periodOf_toNat ties f h1 h2, Nat.sub_add_cancel (by omega)]

/-- A non-zero frequency clamps to 1..1000. -/
theorem clampFreq_range {hz : U16} (h : hz ≠ 0) : 1 ≤ (clampFreq hz).toNat ∧ (clampFreq hz).toNat ≤ 1000 := by
  have hpos : 0 < hz.toNat := by bv_omega
  rw [clampFreq_toNat]
  omega

/-- Settles O21: the rounded quotient of the clamped frequency is the one that the tie rule names, it lies in
1000..1000000, and the programmed period and duty are read off it. -/
theorem setfProgramsRoundedPeriod : Obligations.SetfProgramsRoundedPeriod := by
  refine ⟨fun s => congrArg Host.Outcome.next (setFrequency_zero s), fun hz s hne => ?_⟩
  obtain ⟨h1, h2⟩ := clampFreq_range hne
  have hround := roundQuotient_spec s.params.roundTies 1000000 (clampFreq hz).toNat h1
  obtain ⟨hlo, hhi⟩ := roundsTo_range hround h1 h2
  refine ⟨_, clampFreq_toNat hz ▸ hround, hlo, hhi, congrArg Host.Outcome.next ?_⟩
  rw [setFrequency_nonzero hne, program, dutyOf_periodOf _ h1 h2]
  rfl

/-! ### The tick source with an output enabled (40_pulse_clock.md R104 to R106) -/

/-- The guard of the tick source: one of the two outputs is enabled. -/
theorem outputEnabled_iff {s : State} : outputEnabled s = true ↔ s.outCwEn = true ∨ s.outCcwEn = true :=
  Bool.or_eq_true_iff

section
variable {s : State} (h : outputEnabled s = true)
include h

/-- TMRUPD with an output enabled ends the period. -/
theorem exec_tmrupd_enabled : exec .tmrupd s = .next (periodElapsed s) := execTmrupd_next.mpr ⟨h, rfl⟩

/-- TMRCMP with an output enabled flags the duty point. -/
theorem exec_tmrcmp_enabled : exec .tmrcmp s = .next { s with cmpPending := true } := execTmrcmp_next.mpr ⟨h, rfl⟩

/-- REFCLK ends the period once the count has reached it. -/
theorem exec_refclk_wraps (hge : s.period ≤ s.tickCnt) : exec .refclk s = .next (periodElapsed s) :=
  execRefclk_next.mpr ⟨h, .inl ⟨hge, rfl⟩⟩

/-- REFCLK counts while the count is below the period. -/
theorem exec_refclk_counts (hlt : s.tickCnt < s.period) : exec .refclk s = .next (countReference s) :=
  execRefclk_next.mpr ⟨h, .inr ⟨hlt, rfl⟩⟩

end

/-- An elapsed period appends the clockwise pulse, then the counterclockwise one, each if its output is enabled. -/
theorem periodElapsed_eq (s : State) : periodElapsed s = { s with
    tickCnt := 0
    tickPending := true
    trace := s.trace ++ (if s.outCwEn then [.pulse .cw] else [])
      ++ (if s.outCcwEn then [.pulse .ccw] else []) } := by
  simp [periodElapsed, pulseEvents]

/-- A count below the period does not wrap when it advances. -/
theorem toNat_tickCnt_add_one {s : State} (h : s.tickCnt < s.period) :
    (s.tickCnt + 1).toNat = s.tickCnt.toNat + 1 := by
  bv_omega

/-- A counting reference tick flags the duty point exactly when the count just written is the duty. -/
theorem countReference_eq (s : State) : countReference s = { s with
    tickCnt := s.tickCnt + 1
    cmpPending := if s.tickCnt + 1 = s.duty then true else s.cmpPending } := by
  unfold countReference
  by_cases hduty : s.tickCnt + 1 = s.duty
  · rw [if_pos hduty, decide_eq_true hduty, Bool.or_true]
  · rw [if_neg hduty, decide_eq_false hduty, Bool.or_false]

/-- Settles O13: an enabled output is the guard of both operations, and TMRUPD is the elapsed period. -/
theorem tmrupdAndTmrcmpResult : Obligations.TmrupdAndTmrcmpResult := by
  refine ⟨by decide, by decide, fun s h => ?_⟩
  have hen := outputEnabled_iff.mpr h
  exact ⟨(exec_tmrupd_enabled hen).trans (congrArg _ (periodElapsed_eq s)), exec_tmrcmp_enabled hen⟩

/-- Settles O14: at the period REFCLK and TMRUPD both are the elapsed period; below it the count, which cannot wrap,
rises by one. -/
theorem refclkResult : Obligations.RefclkResult := by
  refine ⟨by decide, fun s h => ?_⟩
  have hen := outputEnabled_iff.mpr h
  refine ⟨fun hge => ?_, fun hlt => ⟨s.tickCnt + 1, toNat_tickCnt_add_one hlt, ?_⟩⟩
  · rw [exec_refclk_wraps hen hge, exec_tmrupd_enabled hen]
  · rw [exec_refclk_counts hen hlt, countReference_eq]

end Sys2Proof.Machine
end

section
/-! PROOFS. The family of 41_stepper_driver.md: what the operations of the driver and the tick handler write (R121 to
R133). -/

namespace Sys2Proof.Machine

open Sys2Proof Sys2Proof.Safety

/-! ### STOP (41_stepper_driver.md R121, R129) and the pins of a disabled output (40_pulse_clock.md R108) -/

/-- STOP is the driver's `Stop()`. -/
theorem exec_stop (s : State) : exec .stop s = .next (stop s) := rfl

/-- `Stop()` appends the callback exactly when a handler is registered and the mode lets it fire. -/
theorem trace_append_stopEvents (s : State) : s.trace ++ stopEvents s =
    if s.cbEn = true ∧ (s.params.cbEdgeOnly = false ∨ s.isMoving = true) then s.trace ++ [.callback]
    else s.trace := by
  have hguard : (s.cbEn && (!s.params.cbEdgeOnly || s.isMoving)) = true ↔
      s.cbEn = true ∧ (s.params.cbEdgeOnly = false ∨ s.isMoving = true) := by simp
  rw [stopEvents, apply_ite (s.trace ++ ·), List.append_nil, if_congr hguard rfl rfl]

/-- `pulse_cw` of a disabled clockwise output is at its idle level. -/
theorem pulseCw_of_disabled {s : State} (h : s.outCwEn = false) : pulseCw s = false := by
  rw [pulseCw, h, Bool.false_and]

/-- `pulse_ccw` of a disabled counterclockwise output is at its idle level. -/
theorem pulseCcw_of_disabled {s : State} (h : s.outCcwEn = false) : pulseCcw s = false := by
  rw [pulseCcw, h, Bool.false_and]

/-- Settles O18: the operation is `Stop()`, whose events are the callback by its mode; both outputs are disabled after
it, so both pins are idle. -/
theorem stopResult : Obligations.StopResult := by
  refine ⟨fun s => ?_, fun _ => ⟨pulseCw_of_disabled, pulseCcw_of_disabled⟩, fun s t hstop => ?_⟩
  · rw [exec_stop, stop, trace_append_stopEvents]
  · obtain rfl : stop s = t := Host.Outcome.next.inj hstop
    exact ⟨pulseCw_of_disabled (stop_outCwEn s), pulseCcw_of_disabled (stop_outCcwEn s)⟩

/-! ### MOVE and CMOVE (41_stepper_driver.md R123, R124) -/

/-- The two directions of motion. -/
theorem asksMotion_eq_true {d : Direction} (h : d = .clockwise ∨ d = .counterClockwise) : asksMotion d = true := by
  rcases h with rfl | rfl <;> rfl

/-- MOVE with steps and a direction of motion starts a bounded move at `ORIGIN_FREQ`. -/
theorem exec_move_started {d : Direction} {n : U16} (hn : n ≠ 0) (hd : asksMotion d = true) (s : State) :
    exec (.move d n) s = .next (moveStart d n (program s.params.originFreq.hz (moveCounts n s))) :=
  congrArg Host.Outcome.next (boundedMove_started hn hd s)

/-- CMOVE with a direction of motion starts an unbounded move. -/
theorem exec_cmove_started {d : Direction} (hd : asksMotion d = true) (s : State) :
    exec (.cmove d) s = .next (continueStart d s) :=
  congrArg Host.Outcome.next (continueMove_started hd s)

/-- Settles O24: `ORIGIN_FREQ` is within 1..1000, so the move programs its rounded quotient; each direction enables its
own output. -/
theorem moveResult : Obligations.MoveResult := by
  refine ⟨fun _ _ s h => exec_move_degraded h s, fun d n s hn hd => ?_⟩
  have hpos := s.params.originFreq.pos
  refine ⟨_, roundQuotient_spec s.params.roundTies 1000000 _ hpos, ?_⟩
  rw [exec_move_started hn (asksMotion_eq_true hd), program, dutyOf_periodOf _ hpos s.params.originFreq.le]
  rcases hd with rfl | rfl <;> rfl

/-- Settles O25: the move enables the output of its direction and leaves the other one as it is. -/
theorem cmoveResult : Obligations.CmoveResult := by
  refine ⟨fun _ s h => exec_cmove_degraded h s, fun d s hd => ?_⟩
  rw [exec_cmove_started (asksMotion_eq_true hd), continueStart]
  rcases hd with rfl | rfl <;> simp [Config.noLimit]

/-! ### DRVINIT, SETCB and RSTCNT (41_stepper_driver.md R125, R132, R133) -/

/-- Settles O26: the operation has no case; it is the write of the reset values. -/
theorem drvinitResult : Obligations.DrvinitResult := ⟨by decide, fun _ => rfl⟩

/-- Settles O29: neither operation has a case; each is the write of its one register. -/
theorem setcbAndRstcntResult : Obligations.SetcbAndRstcntResult :=
  ⟨by decide, by decide, by decide, fun _ => ⟨fun _ => rfl, rfl⟩⟩

/-! ### DRVPROC (41_stepper_driver.md R130) -/

/-- `Stop()` overwrites the mirrored count. -/
theorem stop_mirrorPulses (s : State) : stop (mirrorPulses s) = stop s := rfl

/-- DRVPROC does nothing when not moving. -/
theorem exec_drvproc_idle {s : State} (h : s.isMoving = false) : exec .drvproc s = .next s :=
  if_neg (Bool.eq_false_iff.mp h)

section
variable {s : State} (h : s.isMoving = true)
include h

/-- DRVPROC while moving only mirrors the count, if the move is not counted or its target not reached. -/
theorem exec_drvproc_mirrors (hgo : s.countingEnabled = false ∨ s.currentPulses < s.targetPulses) :
    exec .drvproc s = .next (mirrorPulses s) := by
  refine (if_pos h).trans (congrArg _ (if_neg ?_))
  rw [Bool.and_eq_true, decide_eq_true_eq]
  rintro ⟨hcount, hreached⟩
  rcases hgo with huncounted | hbelow
  · exact absurd hcount (Bool.eq_false_iff.mp huncounted)
  · exact BitVec.not_le.mpr hbelow hreached

/-- DRVPROC while moving stops a counted move that has reached its target. -/
theorem exec_drvproc_stops (hcount : s.countingEnabled = true) (hreached : s.targetPulses ≤ s.currentPulses) :
    exec .drvproc s = .next (stop s) := by
  refine (if_pos h).trans (congrArg _ ((if_pos ?_).trans (stop_mirrorPulses s)))
  rw [hcount, Bool.true_and, decide_eq_true hreached]

end

/-- Settles O27: the three cases of DRVPROC; the mirrored count does not outlive a stop. -/
theorem drvprocResult : Obligations.DrvprocResult :=
  ⟨by decide, fun _ => ⟨exec_drvproc_idle, exec_drvproc_mirrors, exec_drvproc_stops⟩⟩

/-! ### TICK (41_stepper_driver.md R131) -/

/-- A tick whose new count is below the target counts. -/
theorem countPulse_of_lt {s : State} (h : s.currentPulses + 1 < s.targetPulses) : countPulse s = onePulse s :=
  if_neg (BitVec.not_le.mpr h)

/-- A tick whose new count reaches the target stops the move. -/
theorem countPulse_of_ge {s : State} (h : s.targetPulses ≤ s.currentPulses + 1) : countPulse s = stop (onePulse s) :=
  if_pos h

section
variable {s : State} (h : tickReady s = true)
include h

/-- TICK without counting only clears the pending flag. -/
theorem exec_tick_uncounted (hcount : s.countingEnabled = false) : exec .tick s = .next (clearTick s) :=
  execTick_next.mpr ⟨h, .inr ⟨hcount, rfl⟩⟩

/-- TICK while counting clears the pending flag and counts a pulse. -/
theorem exec_tick_counted (hcount : s.countingEnabled = true) : exec .tick s = .next (countPulse (clearTick s)) :=
  execTick_next.mpr ⟨h, .inl ⟨hcount, rfl⟩⟩

end

/-- Settles O28: the two enabling flags are the guard; the new count is the sum of the words, and the stop check is on
it. -/
theorem tickResult : Obligations.TickResult := by
  refine ⟨by decide, fun s hen hpend => ?_⟩
  have hready : tickReady s = true := Bool.and_eq_true_iff.mpr ⟨hen, hpend⟩
  refine ⟨exec_tick_uncounted hready, fun hcount => ⟨s.currentPulses + 1, BitVec.toNat_add .., fun hbelow => ?_,
    fun hreached => ?_⟩⟩
  · rw [exec_tick_counted hready hcount, countPulse_of_lt (s := clearTick s) hbelow]
    rfl
  · rw [exec_tick_counted hready hcount, countPulse_of_ge (s := clearTick s) hreached]
    rfl

end Sys2Proof.Machine
end

section
/-! PROOFS. The family of 42_motion_state.md: the writes of the command layer and SWSYNC (R160 to R163), the sample
buffer (R168), the round count (R169, R170) and the millisecond clock (R171). -/

namespace Sys2Proof

/-- A packed word decodes by the row of its `op`. -/
theorem decode_packWord (op a : Byte) (imm : U16) : decode (packWord op a imm) = decodeFields op a imm := by
  rw [decode, opField_packWord, aField_packWord, immField_packWord]

/-- A word written `op << 24 | imm` decodes by the row of its `op`, with a zero `a`. -/
theorem decode_or_operand (op : Byte) (v : U16) :
    decode (op.setWidth 32 <<< 24 ||| v.setWidth 32) = decodeFields op 0 v := by
  rw [or_operand_eq_packWord, decode_packWord]

end Sys2Proof

namespace Sys2Proof.Machine

open Sys2Proof

/-! ### The clock (42_motion_state.md R171): what the operations with cases answer, and that they keep it -/

/-- An operation that answers a next state in both branches. -/
theorem branches_next {g : Bool} {u v t : State} :
    (if g then (.next u : Result) else .next v) = .next t ↔ (g = true ∧ t = u) ∨ (g = false ∧ t = v) := by
  cases g <;> simp [eq_comm]

/-- START answers the state itself when the sequence runs, else phase SetupSwitches entered. -/
theorem execStart_next {s t : State} : execStart s = .next t ↔
    (s.seqRunning = true ∧ t = s) ∨
    (s.seqRunning = false ∧ t = startRunning (enterPhase .setupSwitches s)) := branches_next

/-- SEQPROC answers one phase body while the sequence runs, else the state itself. -/
theorem execSeqproc_next {s t : State} : execSeqproc s = .next t ↔
    (s.seqRunning = true ∧ t = phaseBody s) ∨ (s.seqRunning = false ∧ t = s) := branches_next

/-- DRVPROC answers the state itself when not moving, else the mirrored count, and the backstop's stop. -/
theorem execDrvproc_next {s t : State} : execDrvproc s = .next t ↔
    (s.isMoving = true ∧
      t = if s.countingEnabled && decide (s.targetPulses ≤ s.currentPulses) then stop (mirrorPulses s)
        else mirrorPulses s) ∨
    (s.isMoving = false ∧ t = s) := branches_next

/-- RDREG answers a next state exactly with a value read, which is then all it writes. -/
theorem execRdreg_next {addr : Byte} {s t : State} : execRdreg addr s = .next t ↔
    ∃ v, regRead addr s = some v ∧ t = { s with rdData := some v } := by
  unfold execRdreg
  cases regRead addr s <;> simp [eq_comm]

/-- RINC completes with the count one higher, or with the count as it is at 65535. -/
theorem exec_rinc_saturates (s : State) : ∃ r : U16,
    r.toNat = min (s.roundCount.toNat + 1) 65535 ∧ exec .rinc s = .next { s with roundCount := r } := by
  by_cases h : s.roundCount < 65535
  · exact ⟨s.roundCount + 1, by bv_omega, if_pos h⟩
  · exact ⟨s.roundCount, by bv_omega, if_neg h⟩

/-- RDEC completes with the count one lower, or with the count as it is at 0. -/
theorem exec_rdec_saturates (s : State) : ∃ r : U16,
    r.toNat = s.roundCount.toNat - 1 ∧ exec .rdec s = .next { s with roundCount := r } := by
  by_cases h : 0 < s.roundCount
  · exact ⟨s.roundCount - 1, by bv_omega, if_pos h⟩
  · exact ⟨s.roundCount, by bv_omega, if_neg h⟩

@[simp] theorem phaseSetupSwitches_nowMs (s : State) : (phaseSetupSwitches s).nowMs = s.nowMs := rfl

@[simp] theorem phaseStartMoving_nowMs (s : State) : (phaseStartMoving s).nowMs = s.nowMs := by
  unfold phaseStartMoving; split <;> simp

@[simp] theorem phaseMonitorCurrent_nowMs (s : State) : (phaseMonitorCurrent s).nowMs = s.nowMs := by
  unfold phaseMonitorCurrent; split <;> simp

@[simp] theorem phaseAdjustSwitches_nowMs (s : State) : (phaseAdjustSwitches s).nowMs = s.nowMs := rfl

@[simp] theorem phaseFinalMove_nowMs (s : State) : (phaseFinalMove s).nowMs = s.nowMs := by
  unfold phaseFinalMove; split <;> simp

@[simp] theorem phaseComplete_nowMs (s : State) : (phaseComplete s).nowMs = s.nowMs := by
  unfold phaseComplete; split <;> rfl

@[simp] theorem phaseIdle_nowMs (s : State) : (phaseIdle s).nowMs = s.nowMs := rfl

/-- No phase body writes the clock. -/
@[simp] theorem phaseBody_nowMs (s : State) : (phaseBody s).nowMs = s.nowMs := by
  unfold phaseBody; split <;> simp

/-- No operation but MSTICK and RESET writes the clock. -/
theorem exec_nowMs {i : Instr} {s t : State} (hm : i ≠ .mstick) (hr : i ≠ .reset) (h : exec i s = .next t) :
    t.nowMs = s.nowMs := by
  cases i
  case mstick => exact absurd rfl hm
  case reset => exact absurd rfl hr
  -- plain writes of other registers
  case drvinit | stop | setcb | rstcnt | wrfreq | wrthr | swsync | seqinit | push =>
    cases h
    rfl
  case wrsw name val => cases name <;> cases h <;> rfl
  -- the driver's procedures
  case setf hz =>
    cases h
    exact setFrequency_nowMs s hz
  case move d n =>
    cases h
    exact boundedMove_nowMs s d n
  case cmove d =>
    cases h
    exact continueMove_nowMs s d
  -- the operations with cases
  case drvproc =>
    obtain ⟨-, rfl⟩ | ⟨-, rfl⟩ := execDrvproc_next.mp h
    · split <;> simp
    · rfl
  case rdreg addr =>
    obtain ⟨v, -, rfl⟩ := execRdreg_next.mp h
    rfl
  case start =>
    obtain ⟨-, rfl⟩ | ⟨-, rfl⟩ := execStart_next.mp h <;> rfl
  case seqproc =>
    obtain ⟨-, rfl⟩ | ⟨-, rfl⟩ := execSeqproc_next.mp h
    · exact phaseBody_nowMs s
    · rfl
  case tmrupd =>
    obtain ⟨-, rfl⟩ := execTmrupd_next.mp h
    rfl
  case tmrcmp =>
    obtain ⟨-, rfl⟩ := execTmrcmp_next.mp h
    rfl
  case tick =>
    obtain ⟨-, ⟨-, rfl⟩ | ⟨-, rfl⟩⟩ := execTick_next.mp h
    · exact countPulse_nowMs (clearTick s)
    · rfl
  case refclk =>
    obtain ⟨-, ⟨-, rfl⟩ | ⟨-, rfl⟩⟩ := execRefclk_next.mp h <;> rfl
  case rinc =>
    obtain ⟨r, -, hnext⟩ := exec_rinc_saturates s
    cases hnext.symm.trans h
    rfl
  case rdec =>
    obtain ⟨r, -, hnext⟩ := exec_rdec_saturates s
    cases hnext.symm.trans h
    rfl

/-- Settles O38: MSTICK is the sum of words, and no other operation but RESET writes the clock. -/
theorem mstickResult : Obligations.MstickResult :=
  ⟨by decide, fun s => ⟨s.nowMs + 1, BitVec.toNat_add .., rfl⟩, fun _ _ _ => exec_nowMs⟩

/-! ### The configuration and the switches (42_motion_state.md R160 to R163) -/

/-- Settles O32: the words of WRFREQ and WRTHR carry their operand in `imm`; each operation is the write of its
register, WRFREQ's the clamped frequency. -/
theorem configurationWrites : Obligations.ConfigurationWrites :=
  ⟨decode_or_operand 0x10, decode_or_operand 0x11, by decide, by decide, by decide, by decide, by decide, by decide,
    fun _ => ⟨fun hz => ⟨clampFreq hz, clampFreq_toNat hz, rfl⟩, fun _ => rfl, fun _ => rfl, fun _ => rfl,
      fun _ => rfl⟩⟩

/-- The bits of three concatenated flags, the last flag in bit 0. -/
theorem getLsbD_flags : ∀ d h c : Bool, let bits := BitVec.ofBool d ++ BitVec.ofBool h ++ BitVec.ofBool c
    bits.getLsbD 0 = c ∧ bits.getLsbD 1 = h ∧ bits.getLsbD 2 = d := by decide

/-- Propagation drives each pin from its own flag. -/
theorem pins_propagate (s : State) : swCurrentOut (propagate s) = s.switchCurrent ∧
    swHoldoffOut (propagate s) = s.switchHoldoff ∧ swDivisionOut (propagate s) = s.switchDivision :=
  getLsbD_flags s.switchDivision s.switchHoldoff s.switchCurrent

/-- Settles O33: SWSYNC is the propagation, which drives the pins and writes `sw_out` and the trace only. -/
theorem swsyncDrivesThePins : Obligations.SwsyncDrivesThePins := by
  refine ⟨by decide, fun s => ?_⟩
  obtain ⟨hcurrent, hholdoff, hdivision⟩ := pins_propagate s
  exact ⟨propagate s, rfl, hcurrent, hholdoff, hdivision, rfl⟩

/-! ### The sample buffer (42_motion_state.md R168) -/

/-- Settles O34: the slot written is the one that the index names before the step, and the sum of words is the sum
modulo 8. -/
theorem pushResult : Obligations.PushResult := by
  refine ⟨decode_or_operand 0x88, fun v s => ⟨_, rfl, rfl, BitVec.toNat_add .., fun k hk => ?_⟩⟩
  rw [Vector.getElem_set]
  exact if_congr eq_comm rfl rfl

/-! ### The round count (42_motion_state.md R169, R170) -/

/-- Settles O36: both operations complete with the saturated count. -/
theorem roundCountSaturates : Obligations.RoundCountSaturates :=
  ⟨by decide, by decide, fun s => ⟨exec_rinc_saturates s, exec_rdec_saturates s⟩⟩

end Sys2Proof.Machine
end

section
/-! PROOFS. The family of 43_sequence_controller.md: SEQINIT, START and SEQPROC phase by phase (R190 to R201), and
the stall in MonitorCurrent (R205). -/

namespace Sys2Proof.Machine

open Sys2Proof Sys2Proof.Safety

/-! ### START (43_sequence_controller.md R191) and the phase that a poll runs (R192) -/

/-- START does nothing while the sequence runs. -/
theorem exec_start_running {s : State} (h : s.seqRunning = true) : exec .start s = .next s := if_pos h

/-- START while the sequence does not run enters SetupSwitches, running. -/
theorem exec_start_idle {s : State} (h : s.seqRunning = false) :
    exec .start s = .next (startRunning (enterPhase .setupSwitches s)) :=
  if_neg (Bool.eq_false_iff.mp h)

/-- SEQPROC does nothing while the sequence does not run. -/
theorem exec_seqproc_not_running {s : State} (h : s.seqRunning = false) : exec .seqproc s = .next s :=
  if_neg (Bool.eq_false_iff.mp h)

section
variable {s : State} (hrun : s.seqRunning = true)
include hrun

/-- SEQPROC while the sequence runs is one phase body. -/
theorem exec_seqproc_running : exec .seqproc s = .next (phaseBody s) := if_pos hrun

theorem exec_seqproc_setupSwitches (hp : s.seqState = .setupSwitches) :
    exec .seqproc s = .next (phaseSetupSwitches s) := by
  rw [exec_seqproc_running hrun, phaseBody, hp]

theorem exec_seqproc_monitorCurrent (hp : s.seqState = .monitorCurrent) :
    exec .seqproc s = .next (phaseMonitorCurrent s) := by
  rw [exec_seqproc_running hrun, phaseBody, hp]

theorem exec_seqproc_adjustSwitches (hp : s.seqState = .adjustSwitches) :
    exec .seqproc s = .next (phaseAdjustSwitches s) := by
  rw [exec_seqproc_running hrun, phaseBody, hp]

theorem exec_seqproc_finalMove (hp : s.seqState = .finalMove) : exec .seqproc s = .next (phaseFinalMove s) := by
  rw [exec_seqproc_running hrun, phaseBody, hp]

theorem exec_seqproc_complete (hp : s.seqState = .complete) : exec .seqproc s = .next (phaseComplete s) := by
  rw [exec_seqproc_running hrun, phaseBody, hp]

theorem exec_seqproc_idle (hp : s.seqState = .idle ∨ s.seqState = .unrecognized) :
    exec .seqproc s = .next (phaseIdle s) := by
  rw [exec_seqproc_running hrun, phaseBody]
  rcases hp with hp | hp <;> rw [hp]

end

/-- Settles O43: SEQINIT has no case; START tests the running flag. -/
theorem seqinitAndStartResult : Obligations.SeqinitAndStartResult :=
  ⟨by decide, by decide, fun _ => ⟨rfl, exec_start_running, exec_start_idle⟩⟩

/-! ### SetupSwitches and AdjustSwitches (43_sequence_controller.md R195, R198) -/

/-- The three pins with the current and division flags set and the holdoff flag clear. -/
theorem flags_current_and_division :
    BitVec.ofBool true ++ BitVec.ofBool false ++ BitVec.ofBool true = (0b101 : BitVec 3) := by decide

/-- The three pins with the current and division flags clear: the holdoff flag alone. -/
theorem flags_holdoff_only : ∀ h : Bool,
    BitVec.ofBool false ++ BitVec.ofBool h ++ BitVec.ofBool false = (if h then 0b010 else 0b000 : BitVec 3) := by decide

/-- SetupSwitches writes three known flags and drives the pins from them. -/
theorem phaseSetupSwitches_eq (s : State) : phaseSetupSwitches s = { s with
    switchCurrent := true
    switchHoldoff := false
    switchDivision := true
    swOut := 0b101
    trace := s.trace ++ [.switches true false true]
    seqState := .startMoving
    phaseStart := s.nowMs } := by
  rw [← flags_current_and_division]
  rfl

/-- AdjustSwitches clears two flags and drives the pins, the holdoff pin from its unchanged flag. -/
theorem phaseAdjustSwitches_eq (s : State) : phaseAdjustSwitches s = { s with
    switchCurrent := false
    switchDivision := false
    swOut := if s.switchHoldoff then 0b010 else 0b000
    trace := s.trace ++ [.switches false s.switchHoldoff false]
    seqState := .finalMove
    phaseStart := s.nowMs } := by
  rw [← flags_holdoff_only s.switchHoldoff]
  rfl

/-- Settles O44: SetupSwitches drives three known levels; AdjustSwitches drives the holdoff pin again from its flag. -/
theorem switchPhases : Obligations.SwitchPhases := fun s hrun =>
  ⟨fun hp => (exec_seqproc_setupSwitches hrun hp).trans (congrArg _ (phaseSetupSwitches_eq s)),
    fun hp => (exec_seqproc_adjustSwitches hrun hp).trans (congrArg _ (phaseAdjustSwitches_eq s))⟩

/-! ### MonitorCurrent (43_sequence_controller.md R197) -/

/-- The test of MonitorCurrent, slot by slot as integers. -/
theorem allBelowThreshold_iff {s : State} : allBelowThreshold s = true ↔
    ∀ (k : Nat) (hk : k < 8), s.buf[k].toInt < s.threshold.toInt := by
  simp [allBelowThreshold, Vector.all_eq_true, BitVec.slt_iff_toInt_lt]

section
variable {s : State} (hrun : s.seqRunning = true) (hp : s.seqState = .monitorCurrent)
include hrun hp

/-- MonitorCurrent advances when every slot is below the threshold. -/
theorem exec_seqproc_advances (h : ∀ (k : Nat) (hk : k < 8), s.buf[k].toInt < s.threshold.toInt) :
    exec .seqproc s = .next (enterPhase .adjustSwitches s) :=
  (exec_seqproc_monitorCurrent hrun hp).trans (congrArg _ (if_pos (allBelowThreshold_iff.mpr h)))

/-- MonitorCurrent does nothing when a slot is not below the threshold. -/
theorem exec_seqproc_stalls (h : ∃ (k : Nat) (hk : k < 8), s.threshold.toInt ≤ s.buf[k].toInt) :
    exec .seqproc s = .next s := by
  obtain ⟨k, hk, hge⟩ := h
  have hfail : ¬ allBelowThreshold s = true := fun hall =>
    absurd (allBelowThreshold_iff.mp hall k hk) (Int.not_lt.mpr hge)
  exact (exec_seqproc_monitorCurrent hrun hp).trans (congrArg _ (if_neg hfail))

end

/-- Settles O46: the test of the phase is the comparison of every slot as an integer. -/
theorem monitorCurrentPhase : Obligations.MonitorCurrentPhase := fun _ hrun hp =>
  ⟨exec_seqproc_advances hrun hp, exec_seqproc_stalls hrun hp⟩

/-! ### FinalMove (43_sequence_controller.md R194, R199) -/

/-- The elapsed time as a number: the difference of words is the difference modulo 2^32. -/
theorem elapsed_toNat (s : State) : (elapsed s).toNat = millisSince s.phaseStart s.nowMs := by
  have h := s.phaseStart.isLt
  rw [elapsed, millisSince, BitVec.toNat_sub]
  congr 1
  omega

/-- A delay has passed when at least that many milliseconds have elapsed. -/
theorem delayPassed_iff {delay : U32} {s : State} :
    delayPassed delay s = true ↔ delay.toNat ≤ millisSince s.phaseStart s.nowMs := by
  rw [delayPassed, decide_eq_true_eq, BitVec.le_def, elapsed_toNat]

/-- Before the settle delay FinalMove only stops. -/
theorem phaseFinalMove_early {s : State} (h : millisSince s.phaseStart s.nowMs < 50) : phaseFinalMove s = stop s :=
  if_neg fun hpassed => absurd (delayPassed_iff.mp hpassed) (Nat.not_le.mpr h)

/-- After the settle delay FinalMove starts the bounded move; its `SetFrequency(ORIGIN_FREQ)` programs what the move
programs again. -/
theorem phaseFinalMove_late {s : State} (h : 50 ≤ millisSince s.phaseStart s.nowMs) :
    phaseFinalMove s = setPhase .complete
      (moveStart .clockwise 2000 (program s.params.originFreq.hz (moveCounts 2000 (stop s)))) := by
  have hpassed : delayPassed Config.settleDelay s = true := delayPassed_iff.mpr h
  rw [phaseFinalMove, if_pos hpassed, setFrequency_origin, boundedMove_started (by decide) rfl]
  rfl

/-- Settles O47: the callback of the step is that of its `Stop()`, and the move programs the rounded quotient of
`ORIGIN_FREQ`, which is within 1..1000. -/
theorem finalMovePhase : Obligations.FinalMovePhase := by
  intro s hrun hp
  refine ⟨fun hearly => ?_, fun hlate => ?_⟩
  · rw [exec_seqproc_finalMove hrun hp, phaseFinalMove_early hearly, exec_stop]
  · have hpos := s.params.originFreq.pos
    refine ⟨_, roundQuotient_spec s.params.roundTies 1000000 _ hpos, ?_⟩
    rw [exec_seqproc_finalMove hrun hp, phaseFinalMove_late hlate, program, stop, trace_append_stopEvents,
      ← dutyOf_periodOf _ hpos s.params.originFreq.le]
    rfl

/-! ### Complete, Idle and unrecognized (43_sequence_controller.md R200, R201) -/

/-- Settles O48: a poll that is not running does nothing, Complete waits for the driver to stop, and the two phases
outside the order clear the running flag. -/
theorem completeAndIdlePhases : Obligations.CompleteAndIdlePhases :=
  ⟨by decide, fun _ => ⟨exec_seqproc_not_running,
    fun hrun hp hmoving => (exec_seqproc_complete hrun hp).trans (congrArg _ (if_pos hmoving)),
    fun hrun hp hstopped => (exec_seqproc_complete hrun hp).trans
      (congrArg _ (if_neg (Bool.eq_false_iff.mp hstopped))),
    exec_seqproc_idle⟩⟩

/-! ### The stall (43_sequence_controller.md R205) -/

/-- The operations of the SequenceController and RESET: what can write the phase and the running flag. -/
def writesSequencer (i : Instr) : Prop := i = .seqinit ∨ i = .start ∨ i = .seqproc ∨ i = .reset

/-- Every other operation keeps the phase and the running flag. -/
theorem exec_keeps_sequencer {i : Instr} {s t : State} (hi : ¬ writesSequencer i) (h : exec i s = .next t) :
    t.seqState = s.seqState ∧ t.seqRunning = s.seqRunning := by
  cases i
  case seqinit | start | seqproc | reset => simp [writesSequencer] at hi
  -- plain writes of other registers
  case drvinit | stop | setcb | rstcnt | wrfreq | wrthr | swsync | push | mstick =>
    cases h
    exact ⟨rfl, rfl⟩
  case wrsw name val => cases name <;> cases h <;> exact ⟨rfl, rfl⟩
  -- the driver's procedures
  case setf | move | cmove =>
    cases h
    simp
  -- the operations with cases
  case drvproc =>
    obtain ⟨-, rfl⟩ | ⟨-, rfl⟩ := execDrvproc_next.mp h
    · split <;> exact ⟨rfl, rfl⟩
    · exact ⟨rfl, rfl⟩
  case rdreg =>
    obtain ⟨v, -, rfl⟩ := execRdreg_next.mp h
    exact ⟨rfl, rfl⟩
  case tmrupd =>
    obtain ⟨-, rfl⟩ := execTmrupd_next.mp h
    exact ⟨rfl, rfl⟩
  case tmrcmp =>
    obtain ⟨-, rfl⟩ := execTmrcmp_next.mp h
    exact ⟨rfl, rfl⟩
  case tick =>
    obtain ⟨-, ⟨-, rfl⟩ | ⟨-, rfl⟩⟩ := execTick_next.mp h
    · simp
    · exact ⟨rfl, rfl⟩
  case refclk =>
    obtain ⟨-, ⟨-, rfl⟩ | ⟨-, rfl⟩⟩ := execRefclk_next.mp h <;> exact ⟨rfl, rfl⟩
  case rinc =>
    obtain ⟨r, -, hnext⟩ := exec_rinc_saturates s
    cases hnext.symm.trans h
    exact ⟨rfl, rfl⟩
  case rdec =>
    obtain ⟨r, -, hnext⟩ := exec_rdec_saturates s
    cases hnext.symm.trans h
    exact ⟨rfl, rfl⟩

/-- Settles O50: START finds the sequence running and a failing test changes nothing; every operation outside the
sequencer keeps phase and flag. -/
theorem stallPersists : Obligations.StallPersists := by
  intro i s t hp hrun
  refine ⟨exec_start_running hrun, fun h hinit hreset htest => ?_⟩
  by_cases hi : writesSequencer i
  · have hsame : exec i s = .next s := by
      obtain rfl | rfl | rfl | rfl := hi
      · exact absurd rfl hinit
      · exact exec_start_running hrun
      · exact exec_seqproc_stalls hrun hp (htest rfl)
      · exact absurd rfl hreset
    cases hsame.symm.trans h
    exact ⟨hp, hrun⟩
  · obtain ⟨hstate, hflag⟩ := exec_keeps_sequencer hi h
    exact ⟨hstate.trans hp, hflag.trans hrun⟩

end Sys2Proof.Machine
end

section
/-! PROOFS. The rest of the family of 30_encoding.md: encoder and decoder are inverse (R82, R83, R85), the rows of the
opcode table decide decoding (R85), the event bit (R84), the words of R91 and the bytes of a word (20_memory.md R64). -/

namespace Sys2Proof

open Sys2Proof.Safety Sys2Proof.Laws

/-! ### Every well-formed operation is decoded back (30_encoding.md R82, R83, R85) -/

/-- The two operand bits of a direction leave no bit of the field above them set. -/
theorem Direction.setWidth_bits_ushiftRight (d : Direction) : (d.bits.setWidth 8 : Byte) >>> 2 = 0 := by
  cases d <;> rfl

/-- A direction is read back from the field its bits were written to. -/
theorem Direction.ofBits_setWidth_bits (d : Direction) :
    Direction.ofBits ((d.bits.setWidth 8 : Byte).extractLsb' 0 2) = d := by
  cases d <;> rfl

/-- Decoding undoes encoding: each operand passes the check of its format and is read back from its field. -/
theorem decode_encode {i : Instr} (h : i.wellFormed = true) : decode (encode i) = .ok i := by
  cases i
  -- no operands: the word is a number
  case drvinit | stop | drvproc | rstcnt | swsync | seqinit | start | seqproc | reset | tmrupd | tmrcmp | tick | refclk
      | rinc | rdec | mstick => decide
  -- the operand is `imm`
  case setf | wrfreq | wrthr | push =>
    rw [encode, decode_packWord]
    exact formatI_ok.mpr ⟨rfl, rfl⟩
  case move dir steps =>
    rw [encode, decode_packWord]
    exact formatAI_ok.mpr ⟨⟨dir.setWidth_bits_ushiftRight, BitVec.ushiftRight_eq_zero le_rfl⟩,
      congrArg (Instr.move · steps) dir.ofBits_setWidth_bits.symm⟩
  case cmove dir =>
    rw [encode, decode_packWord]
    exact formatA_ok.mpr ⟨⟨dir.setWidth_bits_ushiftRight, rfl⟩, congrArg Instr.cmove dir.ofBits_setWidth_bits.symm⟩
  case setcb en => cases en <;> decide
  case wrsw name val => cases name <;> cases val <;> decide
  case rdreg addr =>
    rw [encode, decode_packWord]
    exact (if_pos h).trans (formatA_ok.mpr ⟨⟨BitVec.ushiftRight_eq_zero le_rfl, rfl⟩, rfl⟩)

/-- Whatever decodes is well formed. -/
theorem wellFormed_of_decode {w : U32} {i : Instr} (h : decode w = .ok i) : i.wellFormed = true :=
  (decodeFields_hasFields h).1

/-! ### The rows of the opcode table (30_encoding.md R84, R85) -/

/-- The form of the table that an operation is of: its operands zero. -/
def Instr.tableForm : Instr → Instr
  | .drvinit  => .drvinit
  | .setf _   => .setf 0
  | .move _ _ => .move .stopped 0
  | .cmove _  => .cmove .stopped
  | .stop     => .stop
  | .drvproc  => .drvproc
  | .setcb _  => .setcb false
  | .rstcnt   => .rstcnt
  | .wrfreq _ => .wrfreq 0
  | .wrthr _  => .wrthr 0
  | .wrsw _ _ => .wrsw .current false
  | .swsync   => .swsync
  | .rdreg _  => .rdreg 0
  | .seqinit  => .seqinit
  | .start    => .start
  | .seqproc  => .seqproc
  | .reset    => .reset
  | .tmrupd   => .tmrupd
  | .tmrcmp   => .tmrcmp
  | .tick     => .tick
  | .refclk   => .refclk
  | .push _   => .push 0
  | .rinc     => .rinc
  | .rdec     => .rdec
  | .mstick   => .mstick

theorem tableForm_mem (i : Instr) : i.tableForm ∈ tableForms := by
  cases i <;> simp [Instr.tableForm, tableForms]

/-- A word matches the row of an operation's form exactly when it matches the operation's own. -/
theorem rowMatches_tableForm (i : Instr) (w : U32) : RowMatches i.tableForm w ↔ RowMatches i w := by
  cases i <;> exact Iff.rfl

/-- A word matches the row of the operation it decodes to, the row's extra condition with it. -/
theorem rowMatches_of_decode {w : U32} {i : Instr} (h : decode w = .ok i) : RowMatches i w := by
  refine ⟨masked_eq_of_decode h, ?_⟩
  obtain rfl := encode_of_decode h
  cases i
  case wrsw name val =>
    rw [extraCondition, encode, aField_packWord]
    cases name <;> decide
  case rdreg addr =>
    rw [extraCondition, encode, aField_packWord]
    exact wellFormed_of_decode h
  all_goals trivial

/-- Two packed words are the same exactly when their fields are. -/
theorem packWord_inj {op op' a a' : Byte} {imm imm' : U16} :
    packWord op a imm = packWord op' a' imm' ↔ op = op' ∧ a = a' ∧ imm = imm' := by
  refine ⟨fun h => ⟨?_, ?_, ?_⟩, ?_⟩
  · simpa using congrArg opField h
  · simpa using congrArg aField h
  · simpa using congrArg immField h
  · rintro ⟨rfl, rfl, rfl⟩
    rfl

/-- A word under a mask, field by field. -/
theorem masked_fields {w : U32} {opM aM opR aR : Byte} {immM immR : U16}
    (h : w &&& packWord opM aM immM = packWord opR aR immR) :
    opField w &&& opM = opR ∧ aField w &&& aM = aR ∧ immField w &&& immM = immR := by
  rw [← packWord_fields w, TableWord.packWord_masked rfl rfl rfl] at h
  exact packWord_inj.mp h

/-- Every row fixes the whole of `op`: a word in an operation's row has its `op`. -/
theorem opField_of_masked_eq {i : Instr} {w : U32} (h : w &&& i.tableRow.2 = i.tableRow.1) :
    opField w = opField i.tableRow.1 := by
  have hmask : opField i.tableRow.2 = 0xFF := by cases i <;> simp only [Instr.tableRow] <;> rfl
  rw [← packWord_fields i.tableRow.2, ← packWord_fields i.tableRow.1, hmask] at h
  obtain ⟨hop, -, -⟩ := masked_fields h
  rw [← hop]
  exact (BitVec.and_allOnes (x := opField w)).symm

/-- A word matches at most one row: no two forms share an `op`. -/
theorem rowMatches_unique {w : U32} {r r' : Instr} (hr : r ∈ tableForms) (hr' : r' ∈ tableForms)
    (h : RowMatches r w) (h' : RowMatches r' w) : r = r' := by
  have hnodup : (tableForms.map (fun i : Instr => opField i.tableRow.1)).Nodup := by decide
  apply List.inj_on_of_nodup_map hnodup hr hr'
  rw [← opField_of_masked_eq h.1, opField_of_masked_eq h'.1]

/-- A field masked to 0 from bit `k` up has no bit set there. -/
theorem ushiftRight_eq_zero_of_mask {n k : Nat} {x : BitVec n} (h : x &&& (BitVec.allOnes n <<< k) = 0) :
    x >>> k = 0 := by
  apply BitVec.eq_of_getLsbD_eq
  intro j hj
  have hbit : (x &&& (BitVec.allOnes n <<< k)).getLsbD (k + j) = false := by simp [h]
  by_cases hlt : k + j < n
  · simpa [hlt, hj] using hbit
  · simp [BitVec.getLsbD_of_ge x (k + j) (by omega)]

/-- A word under a mask and match that fix the whole of `op`: how it decodes, and what its other fields are. -/
theorem decode_of_masked {w mask row : U32} (hop : opField mask = 0xFF) (h : w &&& mask = row) :
    decode w = decodeFields (opField row) (aField w) (immField w) ∧
      aField w &&& aField mask = aField row ∧ immField w &&& immField mask = immField row := by
  rw [← packWord_fields mask, ← packWord_fields row, hop] at h
  obtain ⟨hopw, ha, himm⟩ := masked_fields h
  have hw : opField w = opField row := BitVec.and_allOnes.symm.trans hopw
  exact ⟨by rw [decode, hw], ha, himm⟩

/-- A field under a mask of ones is the field. -/
theorem eq_of_allOnes_mask {n : Nat} {x r : BitVec n} (h : x &&& BitVec.allOnes n = r) : x = r :=
  BitVec.and_allOnes.symm.trans h

/-- The three switch names are all patterns but 3. -/
theorem SwitchName.exists_ofBits {b : BitVec 2} (h : b ≠ 3) : ∃ n, SwitchName.ofBits b = some n := by
  have hall : ∀ b : BitVec 2, b ≠ 3 → (SwitchName.ofBits b).isSome = true := by decide
  exact Option.isSome_iff_exists.mp (hall b h)

/-- A word in a row decodes: the fields that the row's mask fixes are those that the format of its `op` checks. -/
theorem decode_of_rowMatches {r : Instr} {w : U32} (h : RowMatches r w) : ∃ i, decode w = .ok i := by
  obtain ⟨hmask, hextra⟩ := h
  cases r <;> simp only [Instr.tableRow] at hmask <;> obtain ⟨hrow, ha, himm⟩ := decode_of_masked rfl hmask
  case drvinit | stop | drvproc | rstcnt | swsync | seqinit | start | seqproc | reset | tmrupd | tmrcmp | tick | refclk
      | rinc | rdec | mstick =>
    exact ⟨_, hrow.trans (formatN_ok.mpr ⟨⟨eq_of_allOnes_mask ha, eq_of_allOnes_mask himm⟩, rfl⟩)⟩
  case setf | wrfreq | wrthr | push => exact ⟨_, hrow.trans (formatI_ok.mpr ⟨eq_of_allOnes_mask ha, rfl⟩)⟩
  case move =>
    exact ⟨_, hrow.trans (formatAI_ok.mpr
      ⟨⟨ushiftRight_eq_zero_of_mask ha, BitVec.ushiftRight_eq_zero le_rfl⟩, rfl⟩)⟩
  case cmove | setcb =>
    exact ⟨_, hrow.trans (formatA_ok.mpr ⟨⟨ushiftRight_eq_zero_of_mask ha, eq_of_allOnes_mask himm⟩, rfl⟩)⟩
  case wrsw =>
    obtain ⟨name, hname⟩ := SwitchName.exists_ofBits hextra
    have hwrsw : decodeWrsw (aField w) (immField w) =
        formatAI 2 1 (aField w) (immField w) (.wrsw name ((immField w).getLsbD 0)) := by rw [decodeWrsw, hname]
    exact ⟨_, hrow.trans (hwrsw.trans (formatAI_ok.mpr
      ⟨⟨ushiftRight_eq_zero_of_mask ha, ushiftRight_eq_zero_of_mask himm⟩, rfl⟩))⟩
  case rdreg =>
    exact ⟨_, hrow.trans ((if_pos hextra).trans
      (formatA_ok.mpr ⟨⟨BitVec.ushiftRight_eq_zero le_rfl, eq_of_allOnes_mask himm⟩, rfl⟩))⟩

/-! ### Words as bytes (20_memory.md R64) -/

/-- The four bytes of a word, put together again, are the word. -/
theorem wordOfBytes_bytes (w : U32) : wordOfBytes (w.extractLsb' 0 8) (w.extractLsb' 8 8) (w.extractLsb' 16 8)
    (w.extractLsb' 24 8) = w := by
  rw [wordOfBytes, BitVec.extractLsb'_append_extractLsb'_eq_extractLsb' (show 24 = 16 + 8 from rfl),
    BitVec.extractLsb'_append_extractLsb'_eq_extractLsb' (show 16 = 8 + 8 from rfl),
    BitVec.extractLsb'_append_extractLsb'_eq_extractLsb' (show 8 = 0 + 8 from rfl)]
  exact BitVec.extractLsb'_eq_self

/-- The bytes of a word as numbers, the least significant first. -/
theorem bytesOfWord_toNat (w : U32) : (bytesOfWord w).map BitVec.toNat =
    [w.toNat % 256, w.toNat / 256 % 256, w.toNat / 65536 % 256, w.toNat / 16777216] := by
  have htop : w.toNat / 16777216 < 256 := by omega
  simp [bytesOfWord, Nat.shiftRight_eq_div_pow, Nat.mod_eq_of_lt htop]

/-- Bytes that begin with a word's decode as the word does. -/
theorem decodeBytes_bytesOfWord (w : U32) (rest : List Byte) :
    decodeBytes (bytesOfWord w ++ rest) = (decode w).map (·, rest) := by
  simp only [bytesOfWord, List.cons_append, List.nil_append, decodeBytes, wordOfBytes_bytes]
  cases decode w <;> rfl

/-! ### The obligations of the encoding -/

/-- Settles O1: the words are numbers, decoded by evaluation. -/
theorem documentedWordsDecode : Obligations.DocumentedWordsDecode := by
  refine ⟨?_, ?_, ?_, ?_, ?_, ?_, ?_, ?_, ?_, ?_⟩ <;> decide

/-- Settles O2: each operand passes the check of its format and is read back from its field. -/
theorem encodedInstructionDecodesBack : Obligations.EncodedInstructionDecodesBack := fun _ => decode_encode

/-- Settles O3: every row of the decoder answers an operation whose word has the fields the row was applied to. -/
theorem decodedWordEncodesBack : Obligations.DecodedWordEncodesBack := fun _ _ h =>
  ⟨wellFormed_of_decode h, encode_of_decode h⟩

/-- Settles O4: an operation's row is its form's, the formats check what the masks fix, and no two rows share an `op`.
-/
theorem tableRowsDecideDecoding : Obligations.TableRowsDecideDecoding := fun w =>
  ⟨⟨fun ⟨i, h⟩ => ⟨i.tableForm, tableForm_mem i, (rowMatches_tableForm i w).mpr (rowMatches_of_decode h)⟩,
      fun ⟨_, _, h⟩ => decode_of_rowMatches h⟩,
    fun _ hr _ hr' => rowMatches_unique hr hr', fun _ => rowMatches_of_decode⟩

/-- Settles O6: a word that decodes is its operation's own, which lies in the half of its agent. -/
theorem eventBitNamesTheAgent : Obligations.EventBitNamesTheAgent := by
  intro w i h
  obtain ⟨-, hbit⟩ := encode_in_tableRow i
  rwa [encode_of_decode h] at hbit

/-- Settles O7: the four bytes are the base-256 digits, they join to the word again, and `decodeBytes` decodes the word
they join to. -/
theorem wordBytesLittleEndian : Obligations.WordBytesLittleEndian := by
  intro w rest
  refine ⟨bytesOfWord_toNat w, ⟨_, _, _, _, rfl, wordOfBytes_bytes w⟩, fun i h => ?_, fun e h => ?_⟩ <;>
    rw [decodeBytes_bytesOfWord, h] <;> rfl

end Sys2Proof
end

section
/-! PROOFS. What no operation looks at: the reference-tick count, the compare flag, the round count, the read output and
the stimuli still to come decide no other register and no refusal, except in REFCLK (40_pulse_clock.md R106). -/

namespace Sys2Proof.Machine

open Sys2Proof Sys2Proof.Safety

/-! ### The unread part of the state -/

/-- The fields that decide nothing but themselves: for another register no operation looks at them, except REFCLK at the
reference-tick count and a read at its own register. -/
structure Unread where
  tickCnt    : U32
  cmpPending : Bool
  roundCount : U16
  rdData     : Option U32
  script     : List Stimulus

/-- The unread part of a state. -/
def State.unread (s : State) : Unread where
  tickCnt    := s.tickCnt
  cmpPending := s.cmpPending
  roundCount := s.roundCount
  rdData     := s.rdData
  script     := s.script

/-- A state with another unread part. -/
def State.withUnread (s : State) (u : Unread) : State :=
  { s with
    tickCnt    := u.tickCnt
    cmpPending := u.cmpPending
    roundCount := u.roundCount
    rdData     := u.rdData
    script     := u.script }

@[simp] theorem withUnread_unread (s : State) : s.withUnread s.unread = s := rfl
@[simp] theorem params_withUnread (s : State) (u : Unread) : (s.withUnread u).params = s.params := rfl

/-- The tick source armed again: count and compare flag 0, as a successful `Move` leaves them (41_stepper_driver.md
R123). -/
def Unread.rearm (u : Unread) : Unread := { u with tickCnt := 0, cmpPending := false }

/-! ### The shared operations beside the unread part -/

@[simp] theorem stop_withUnread (s : State) (u : Unread) : stop (s.withUnread u) = (stop s).withUnread u := rfl
@[simp] theorem moveStart_withUnread (d : Direction) (n : U16) (s : State) (u : Unread) :
    moveStart d n (s.withUnread u) = (moveStart d n s).withUnread u.rearm := rfl
@[simp] theorem enterPhase_withUnread (p : Phase) (s : State) (u : Unread) :
    enterPhase p (s.withUnread u) = (enterPhase p s).withUnread u := rfl
@[simp] theorem setPhase_withUnread (p : Phase) (s : State) (u : Unread) :
    setPhase p (s.withUnread u) = (setPhase p s).withUnread u := rfl

/-- A case split beside the unread part, case by case. -/
theorem ite_withUnread {p : Prop} [Decidable p] {s t s' t' : State} {u : Unread} (hs : s' = s.withUnread u)
    (ht : t' = t.withUnread u) : (if p then s' else t') = (if p then s else t).withUnread u := by
  subst hs ht
  exact (apply_ite (State.withUnread · u) p s t).symm

@[simp] theorem setFrequency_withUnread (hz : U16) (s : State) (u : Unread) :
    setFrequency hz (s.withUnread u) = (setFrequency hz s).withUnread u :=
  ite_withUnread rfl rfl

@[simp] theorem continueMove_withUnread (d : Direction) (s : State) (u : Unread) :
    continueMove d (s.withUnread u) = (continueMove d s).withUnread u :=
  ite_withUnread rfl rfl

@[simp] theorem countPulse_withUnread (s : State) (u : Unread) :
    countPulse (s.withUnread u) = (countPulse s).withUnread u :=
  ite_withUnread rfl rfl

/-- `Move` arms the tick source again when it succeeds. -/
@[simp] theorem boundedMove_withUnread (d : Direction) (n : U16) (s : State) (u : Unread) :
    boundedMove d n (s.withUnread u) =
      (boundedMove d n s).withUnread (if n = 0 ∨ asksMotion d = false then u else u.rearm) := by
  unfold boundedMove
  split
  · rfl
  · exact (congrArg _ (setFrequency_withUnread _ (moveCounts n s) u)).trans (moveStart_withUnread d n _ u)

/-! ### The phase bodies beside the unread part -/

@[simp] theorem phaseStartMoving_withUnread (s : State) (u : Unread) :
    phaseStartMoving (s.withUnread u) = (phaseStartMoving s).withUnread u := by
  refine ite_withUnread ?_ rfl
  exact (congrArg (enterPhase _ <| continueMove _ ·) (setFrequency_withUnread s.freq s u)).trans (by simp)

@[simp] theorem phaseMonitorCurrent_withUnread (s : State) (u : Unread) :
    phaseMonitorCurrent (s.withUnread u) = (phaseMonitorCurrent s).withUnread u :=
  ite_withUnread rfl rfl

@[simp] theorem phaseComplete_withUnread (s : State) (u : Unread) :
    phaseComplete (s.withUnread u) = (phaseComplete s).withUnread u :=
  ite_withUnread rfl rfl

/-- FinalMove arms the tick source again once the settle delay has passed. -/
@[simp] theorem phaseFinalMove_withUnread (s : State) (u : Unread) : phaseFinalMove (s.withUnread u) =
    (phaseFinalMove s).withUnread (if delayPassed Config.settleDelay s then u.rearm else u) := by
  unfold phaseFinalMove
  change (if delayPassed Config.settleDelay s = true then _ else _) = _
  split
  · simp [asksMotion, Config.finalSteps]
  · rfl

/-- The poll starts the final move of the sequence (43_sequence_controller.md R199). -/
def startsFinalMove (s : State) : Bool := decide (s.seqState = .finalMove) && delayPassed Config.settleDelay s

/-- A phase body keeps the unread part, but for the final move, which arms the tick source again. -/
theorem phaseBody_withUnread (s : State) (u : Unread) : phaseBody (s.withUnread u) =
    (phaseBody s).withUnread (if startsFinalMove s then u.rearm else u) := by
  unfold phaseBody startsFinalMove
  change (match s.seqState with
    | .idle => _ | .setupSwitches => _ | .startMoving => _ | .monitorCurrent => _ | .adjustSwitches => _
    | .finalMove => _ | .complete => _ | .unrecognized => _) = _
  cases s.seqState
  case finalMove => simp
  case startMoving => exact phaseStartMoving_withUnread s u
  case monitorCurrent => exact phaseMonitorCurrent_withUnread s u
  case complete => exact phaseComplete_withUnread s u
  all_goals rfl

/-! ### Every operation beside the unread part -/

/-- A function of the next state; a refusal stays. -/
def onNext (f : State → State) : Result → Result
  | .next t    => .next (f t)
  | .fault r   => .fault r
  | .refused r => .refused r

/-- A function of the next state, in a case split, is one in each case. -/
theorem ite_onNext {p : Prop} [Decidable p] {x y x' y' : Result} {f : State → State} (hx : x' = onNext f x)
    (hy : y' = onNext f y) : (if p then x' else y') = onNext f (if p then x else y) := by
  subst hx hy
  exact (apply_ite (onNext f) p x y).symm

/-- What an operation leaves of the unread part `u` of a state that is else `s`. -/
def unreadAfter (i : Instr) (s : State) (u : Unread) : Unread :=
  match i with
  | .drvinit    => u.rearm
  | .move d n   => if n = 0 ∨ asksMotion d = false then u else u.rearm
  | .rdreg addr => { u with rdData := regRead addr (s.withUnread u) }
  | .seqproc    => if s.seqRunning && startsFinalMove s then u.rearm else u
  | .reset      => { State.reset.unread with script := u.script }
  | .tmrupd     => { u with tickCnt := 0 }
  | .tmrcmp     => { u with cmpPending := true }
  | .refclk     =>
    if s.period ≤ s.tickCnt then { u with tickCnt := 0 }
    else { u with
      tickCnt    := s.tickCnt + 1
      cmpPending := u.cmpPending || decide (s.tickCnt + 1 = s.duty) }
  | .rinc       => if u.roundCount < 65535 then { u with roundCount := u.roundCount + 1 } else u
  | .rdec       => if 0 < u.roundCount then { u with roundCount := u.roundCount - 1 } else u
  | _           => u

/-- A read answers at the mapped addresses, whatever the unread part. -/
theorem regRead_withUnread_isSome (addr : Byte) (s : State) (u : Unread) :
    (regRead addr (s.withUnread u)).isSome = (regRead addr s).isSome := by
  rw [regRead_isSome, regRead_isSome]

/-- An operation decides all but the unread part, and its refusals, without looking at the unread part; REFCLK looks at
the reference-tick count. -/
theorem exec_withUnread {i : Instr} {s : State} {u : Unread} (hcnt : i = .refclk → u.tickCnt = s.tickCnt) :
    exec i (s.withUnread u) = onNext (·.withUnread (unreadAfter i s u)) (exec i s) := by
  cases i
  case drvinit | stop | setcb | rstcnt | wrfreq | wrthr | swsync | seqinit | push | mstick | reset => rfl
  case setf hz => exact congrArg Host.Outcome.next (setFrequency_withUnread hz s u)
  case move d n => exact congrArg Host.Outcome.next (boundedMove_withUnread d n s u)
  case cmove d => exact congrArg Host.Outcome.next (continueMove_withUnread d s u)
  case wrsw name val => cases name <;> rfl
  -- the operations with cases that look at no unread field
  case drvproc => exact ite_onNext (congrArg Host.Outcome.next (ite_withUnread rfl rfl)) rfl
  case start | tmrupd | tmrcmp => exact ite_onNext rfl rfl
  case tick =>
    exact ite_onNext (congrArg Host.Outcome.next (ite_withUnread (countPulse_withUnread (clearTick s) u) rfl)) rfl
  case seqproc =>
    unfold exec execSeqproc unreadAfter
    change (if s.seqRunning = true then _ else _) = _
    cases s.seqRunning
    · rfl
    · exact congrArg Host.Outcome.next (phaseBody_withUnread s u)
  -- the operations that read what they write
  case rinc =>
    obtain ⟨r, -, hnext⟩ := exec_rinc_saturates s
    rw [hnext]
    change (if u.roundCount < 65535 then _ else _) = Host.Outcome.next (s.withUnread (if _ then _ else _))
    split <;> rfl
  case rdec =>
    obtain ⟨r, -, hnext⟩ := exec_rdec_saturates s
    rw [hnext]
    change (if 0 < u.roundCount then _ else _) = Host.Outcome.next (s.withUnread (if _ then _ else _))
    split <;> rfl
  case rdreg addr =>
    have hsome := regRead_withUnread_isSome addr s u
    match hu : regRead addr (s.withUnread u), hs : regRead addr s with
    | some _, some _ | none, none =>
      simp only [exec, execRdreg, unreadAfter, hu, hs]
      rfl
    | some _, none | none, some _ => simp [hu, hs] at hsome
  case refclk =>
    have hu := hcnt rfl
    unfold exec execRefclk unreadAfter
    refine ite_onNext (congrArg Host.Outcome.next ?_) rfl
    change (if s.period ≤ u.tickCnt then _ else _) = _
    rw [hu]
    split
    · rfl
    · simp [countReference, State.withUnread, hu]

/-- A completing operation completes beside every unread part, with the same next state beside it. -/
theorem exec_withUnread_next {i : Instr} {s t : State} {u : Unread} (hcnt : i = .refclk → u.tickCnt = s.tickCnt)
    (h : exec i s = .next t) : exec i (s.withUnread u) = .next (t.withUnread (unreadAfter i s u)) := by
  rw [exec_withUnread hcnt, h]
  rfl

/-- The unread part of a next state. -/
theorem unread_of_exec {i : Instr} {s t : State} (h : exec i s = .next t) : t.unread = unreadAfter i s s.unread := by
  have hsame := exec_withUnread_next (u := s.unread) (fun _ => rfl) h
  rw [withUnread_unread, h] at hsame
  rw [Host.Outcome.next.inj hsame]
  rfl

/-! ### One unread field at a time -/

/-- The round count is read by its own read, RINC and RDEC only; RESET overwrites it. -/
theorem unreadAfter_roundCount {i : Instr} (hinc : i ≠ .rinc) (hdec : i ≠ .rdec) (hreset : i ≠ .reset)
    (hread : i ≠ .rdreg 0x0D) (s : State) (u : Unread) (r : U16) :
    unreadAfter i s { u with roundCount := r } = { unreadAfter i s u with roundCount := r } := by
  cases i
  case rinc => exact absurd rfl hinc
  case rdec => exact absurd rfl hdec
  case reset => exact absurd rfl hreset
  case move | seqproc | refclk => simp only [unreadAfter]; split <;> rfl
  case rdreg addr =>
    have haddr : addr.toNat ≠ 0x0D := fun h => hread (congrArg Instr.rdreg (BitVec.eq_of_toNat_eq h))
    have hsame : regRead addr (s.withUnread { u with roundCount := r }) = regRead addr (s.withUnread u) := by
      unfold regRead
      split
      case h_13 h => exact absurd h haddr
      all_goals rfl
    simp only [unreadAfter, hsame]
  all_goals rfl

/-- The compare flag is read by its own read only. -/
theorem unreadAfter_cmpPending {i : Instr} (hread : i ≠ .rdreg 0x03) (s : State) (u : Unread) (b : Bool) :
    ∃ c, unreadAfter i s { u with cmpPending := b } = { unreadAfter i s u with cmpPending := c } := by
  cases i
  case move | seqproc | refclk | rinc | rdec => simp only [unreadAfter]; split <;> exact ⟨_, rfl⟩
  case rdreg addr =>
    have haddr : addr.toNat ≠ 0x03 := fun h => hread (congrArg Instr.rdreg (BitVec.eq_of_toNat_eq h))
    have hsame : regRead addr (s.withUnread { u with cmpPending := b }) = regRead addr (s.withUnread u) := by
      unfold regRead
      split
      case h_4 h => exact absurd h haddr
      all_goals rfl
    simp only [unreadAfter, hsame]
    exact ⟨_, rfl⟩
  all_goals exact ⟨_, rfl⟩

/-- The stimuli still to come are kept, and neither they nor the read output are read. -/
theorem unreadAfter_script (i : Instr) (s : State) (u : Unread) (d : Option U32) (x : List Stimulus) :
    ∃ e, unreadAfter i s { u with rdData := d, script := x } = { unreadAfter i s u with rdData := e, script := x } := by
  cases i
  case move | seqproc | refclk | rinc | rdec => simp only [unreadAfter]; split <;> exact ⟨_, rfl⟩
  all_goals exact ⟨_, rfl⟩

/-- Without REFCLK the reference-tick count is read by its own read only. -/
theorem unreadAfter_tickCnt {i : Instr} (hi : i ≠ .refclk) (s : State) (u : Unread) (c : U32) (d : Option U32) :
    ∃ c' d', unreadAfter i s { u with tickCnt := c, rdData := d } =
      { unreadAfter i s u with tickCnt := c', rdData := d' } := by
  cases i
  case refclk => exact absurd rfl hi
  case move | seqproc | rinc | rdec => simp only [unreadAfter]; split <;> exact ⟨_, _, rfl⟩
  all_goals exact ⟨_, _, rfl⟩

/-- Settles O42: the round count is an unread field that no other operation writes. -/
theorem roundCountReadByNoOtherOperation : Obligations.RoundCountReadByNoOtherOperation := by
  intro i s t r hinc hdec hreset hread h
  have hother := exec_withUnread_next (u := { s.unread with roundCount := r }) (fun _ => rfl) h
  rw [unreadAfter_roundCount hinc hdec hreset hread, ← unread_of_exec h] at hother
  exact hother

/-- Settles O60: the compare flag is an unread field; an operation that writes it leaves it as some flag `c`. -/
theorem compareFlagReadByNoRule : Obligations.CompareFlagReadByNoRule := by
  intro i s t b hread h
  have hother := exec_withUnread_next (u := { s.unread with cmpPending := b }) (fun _ => rfl) h
  obtain ⟨c, hc⟩ := unreadAfter_cmpPending hread s s.unread b
  rw [hc, ← unread_of_exec h] at hother
  exact ⟨c, hother⟩

/-! ### Runs of operations -/

/-- A run of two lists is a run of the second from where the first ends. -/
theorem execAll_append {is js : List Instr} {s t : State} (h : execAll is s = .next t) :
    execAll (is ++ js) s = execAll js t := by
  induction is generalizing s with
  | nil =>
    cases h
    rfl
  | cons i is ih =>
    cases hi : exec i s with
    | next s' =>
      simp only [execAll, hi] at h
      simp only [List.cons_append, execAll, hi, ih h]
    | fault r => simp [execAll, hi] at h
    | refused r => simp [execAll, hi] at h

/-- A run that completes completes its first operation, and the rest from there. -/
theorem execAll_cons_next {i : Instr} {is : List Instr} {s t : State} :
    execAll (i :: is) s = .next t ↔ ∃ u, exec i s = .next u ∧ execAll is u = .next t := by
  cases hi : exec i s <;> simp [execAll, hi]

/-- The operations after a completing one run from its next state. -/
theorem execAll_cons {i : Instr} {is : List Instr} {s t : State} (h : exec i s = .next t) :
    execAll (i :: is) s = execAll is t := by
  simp only [execAll, h]

/-! ### A script runs as its operations -/

/-- A stimulus that stands for an operation is executed on the state with the stimulus taken off. -/
theorem step_of_readStimulus {s : State} {x : Stimulus} {rest : List Stimulus} {i : Instr}
    (hs : s.script = x :: rest) (hx : readStimulus x = .ok i) : step s = exec i (takeStimulus rest s) := by
  simp [step, fetch, hs, hx]

/-- A word that decodes is read as its operation. -/
theorem readWord_decoded {w : U32} {i : Instr} (h : decode w = .ok i) : readWord w = .ok i := by
  simp [readWord, h]

/-- What an operation answers beside another read output and other stimuli to come: the same but for these two, the
stimuli kept. -/
theorem exec_beside_script (i : Instr) (s : State) (d : Option U32) (x : List Stimulus) :
    ∃ e, exec i { s with rdData := d, script := x } = onNext ({ · with rdData := e, script := x }) (exec i s) := by
  have hother := exec_withUnread (i := i) (s := s) (u := { s.unread with rdData := d, script := x }) (fun _ => rfl)
  obtain ⟨e, he⟩ := unreadAfter_script i s s.unread d x
  refine ⟨e, hother.trans ?_⟩
  cases hi : exec i s with
  | next t =>
    rw [he, ← unread_of_exec hi]
    rfl
  | fault r => rfl
  | refused r => rfl

/-- An operation keeps the stimuli still to come. -/
theorem exec_script {i : Instr} {s t : State} (h : exec i s = .next t) : t.script = s.script := by
  obtain ⟨e, he⟩ := unreadAfter_script i s s.unread s.rdData s.script
  exact congrArg Unread.script ((unread_of_exec h).trans he)

/-- The run of a script, by induction on its operations, over the state beside any read output. -/
theorem run_scriptOf (is : List Instr) (hwf : ∀ i ∈ is, i.wellFormed = true) (s : State) (d : Option U32) :
    ∃ e, Host.Core.run core is.length { s with rdData := d, script := scriptOf is ++ s.script } =
      onNext ({ · with rdData := e }) (execAll is s) := by
  induction is generalizing s d with
  | nil => exact ⟨d, rfl⟩
  | cons i is ih =>
    have hread : readStimulus (.word (encode i)) = .ok i :=
      readWord_decoded (decode_encode (hwf i (List.mem_cons_self ..)))
    have hstep : step { s with rdData := d, script := scriptOf (i :: is) ++ s.script } =
        exec i { s with rdData := none, script := scriptOf is ++ s.script } := step_of_readStimulus rfl hread
    obtain ⟨e, he⟩ := exec_beside_script i s none (scriptOf is ++ s.script)
    rw [he] at hstep
    cases hi : exec i s with
    | next t =>
      obtain ⟨e', he'⟩ := ih (fun j hj => hwf j (List.mem_cons_of_mem _ hj)) t e
      refine ⟨e', ?_⟩
      rw [execAll_cons hi, ← he', exec_script hi]
      simp only [List.length_cons, Host.Core.run, core, hstep, hi, onNext]
    | fault r => nomatch r
    | refused r =>
      refine ⟨none, ?_⟩
      simp only [List.length_cons, Host.Core.run, core, hstep, hi, onNext, execAll]

/-- A stimulus that a step refuses is passed over and reported. -/
theorem applyAll_of_refused {x : Stimulus} {xs : List Stimulus} {s : State} {r : Refusal}
    (h : step { s with script := x :: xs } = .refused r) :
    applyAll (x :: xs) s = ((applyAll xs s).1, r :: (applyAll xs s).2) := by
  cases hx : readStimulus x with
  | error r' =>
    rw [step_refused_of_readStimulus rfl hx] at h
    cases h
    simp only [applyAll, hx]
  | ok i =>
    obtain ⟨e, he⟩ := exec_beside_script i s none xs
    have hstep : step { s with script := x :: xs } = _ := (step_of_readStimulus rfl hx).trans he
    rw [hstep] at h
    cases hi : exec i s with
    | next t => simp [hi, onNext] at h
    | fault f => nomatch f
    | refused r' =>
      simp only [hi, onNext, Host.Outcome.refused.injEq] at h
      subst h
      simp only [applyAll, hx, hi]

/-- A stimulus that a step runs has that step's effect, the read output aside. -/
theorem applyAll_of_next {x : Stimulus} {xs : List Stimulus} {s t : State}
    (h : step { s with script := x :: xs } = .next t) :
    ∃ d, applyAll (x :: xs) s = applyAll xs { t with script := s.script, rdData := d } := by
  cases hx : readStimulus x with
  | error r => rw [step_refused_of_readStimulus rfl hx] at h; nomatch h
  | ok i =>
    obtain ⟨e, he⟩ := exec_beside_script i s none xs
    have hstep : step { s with script := x :: xs } = _ := (step_of_readStimulus rfl hx).trans he
    rw [hstep] at h
    cases hi : exec i s with
    | next u =>
      simp only [hi, onNext, Host.Outcome.next.injEq] at h
      subst h
      refine ⟨u.rdData, ?_⟩
      simp only [applyAll, hx, hi, ← exec_script hi]
    | fault f => nomatch f
    | refused r => simp [hi, onNext] at h

/-- Settles O11: a word of the script is read as its operation, which neither looks at the script nor at the read
output, so the run of the script and that of the operations go in step. -/
theorem scriptRunsAsItsOperations : Obligations.ScriptRunsAsItsOperations := by
  refine ⟨fun is s rest hwf hs => ?_, fun _ => rfl,
    fun _ _ _ => ⟨fun _ => applyAll_of_refused, fun _ => applyAll_of_next⟩⟩
  obtain ⟨e, he⟩ := run_scriptOf is hwf { s with script := rest } s.rdData
  have hrun : Host.Core.run core is.length s = _ := (congrArg (Host.Core.run core _) (by rw [← hs])).trans he
  rw [hrun]
  exact ⟨fun t ht => ⟨e, by rw [ht]; rfl⟩, fun r hr => by rw [hr]; rfl⟩

/-- Settles O8: the fetch reads the word as its operation and takes it off. -/
theorem stepRunsDecodedInstruction : Obligations.StepRunsDecodedInstruction := fun _ _ _ _ hs hw =>
  step_of_readStimulus hs (readWord_decoded hw)

/-- A word of `op[7] = 0` on the command port is read as any word. -/
theorem readStimulus_cmdPort {w : U32} (h : w.getLsbD 31 = false) : readStimulus (.cmdPort w) = readWord w :=
  if_neg (Bool.eq_false_iff.mp h)

/-- An event word on the command port is refused. -/
theorem readStimulus_cmdPort_event {w : U32} (h : w.getLsbD 31 = true) :
    readStimulus (.cmdPort w) = .error .eventOnCommandPort := if_pos h

/-- Settles O9: what each port's stimulus is read as; a step runs what is read or refuses what is not. -/
theorem portsRunTheirOperations : Obligations.PortsRunTheirOperations := fun _ _ =>
  ⟨fun _ _ hs hcmd hw => step_of_readStimulus hs ((readStimulus_cmdPort hcmd).trans (readWord_decoded hw)),
    fun _ _ hs hcmd hw => step_refused_of_readStimulus hs ((readStimulus_cmdPort hcmd).trans (readWord_reserved hw)),
    fun _ hs hevent => step_refused_of_readStimulus hs (readStimulus_cmdPort_event hevent),
    (step_of_readStimulus · rfl), (step_of_readStimulus · rfl), fun _ => (step_of_readStimulus · rfl),
    (step_of_readStimulus · rfl), (step_of_readStimulus · rfl), (step_of_readStimulus · rfl)⟩

/-- Settles O10: the fetch finds an empty script. -/
theorem waitingBlockUnchanged : Obligations.WaitingBlockUnchanged := fun s hs => by simp [step, fetch, hs]

/-! ### The reference-clock level refines the event level (40_pulse_clock.md R107) -/

/-- An operation of the reference-clock level but REFCLK is one of the event level. -/
theorem eventLevel_of_referenceLevel {i : Instr} (h : referenceLevel i = true) (hi : i ≠ .refclk) :
    eventLevel i = true := by
  cases i
  case refclk => exact absurd rfl hi
  case tmrupd | tmrcmp => nomatch h
  all_goals rfl

/-- REFCLK, seen without the reference-tick count, is TMRUPD where the period ends, TMRCMP where the duty point is
reached, and nothing else where. -/
theorem exec_refclk_as_event {s t : State} (h : exec .refclk s = .next t) (c : U32) (d : Option U32) :
    ∃ js c', (∀ j ∈ js, eventLevel j = true) ∧
      execAll js { s with tickCnt := c, rdData := d } = .next { t with tickCnt := c', rdData := d } := by
  obtain ⟨hen, ⟨-, rfl⟩ | ⟨-, rfl⟩⟩ := execRefclk_next.mp h
  · refine ⟨[.tmrupd], 0, by simp [eventLevel], (execAll_cons ?_).trans rfl⟩
    exact exec_tmrupd_enabled (s := { s with tickCnt := c, rdData := d }) hen
  · by_cases hduty : s.tickCnt + 1 = s.duty
    · refine ⟨[.tmrcmp], c, by simp [eventLevel], (execAll_cons
        (exec_tmrcmp_enabled (s := { s with tickCnt := c, rdData := d }) hen)).trans ?_⟩
      rw [countReference_eq, if_pos hduty]
      rfl
    · refine ⟨[], c, by simp, ?_⟩
      rw [countReference_eq, if_neg hduty]
      rfl

/-- One operation of the reference-clock level is a run of the event level, seen without the reference-tick count and
the read output. -/
theorem exec_as_event {i : Instr} {s t : State} (hlevel : referenceLevel i = true) (h : exec i s = .next t)
    (c : U32) (d : Option U32) : ∃ js c' d', (∀ j ∈ js, eventLevel j = true) ∧
      execAll js { s with tickCnt := c, rdData := d } = .next { t with tickCnt := c', rdData := d' } := by
  by_cases hi : i = .refclk
  · subst hi
    obtain ⟨js, c', hjs, hrun⟩ := exec_refclk_as_event h c d
    exact ⟨js, c', d, hjs, hrun⟩
  · obtain ⟨c', d', hu⟩ := unreadAfter_tickCnt hi s s.unread c d
    have hother := exec_withUnread_next (u := { s.unread with tickCnt := c, rdData := d }) (absurd · hi) h
    rw [hu, ← unread_of_exec h] at hother
    exact ⟨[i], c', d', by simpa using eventLevel_of_referenceLevel hlevel hi, (execAll_cons hother).trans rfl⟩

/-- A run of the reference-clock level is one of the event level, by induction on its operations. -/
theorem execAll_as_event {is : List Instr} (hlevel : ∀ i ∈ is, referenceLevel i = true) {s t : State}
    (h : execAll is s = .next t) (c : U32) (d : Option U32) : ∃ js c' d', (∀ j ∈ js, eventLevel j = true) ∧
      execAll js { s with tickCnt := c, rdData := d } = .next { t with tickCnt := c', rdData := d' } := by
  induction is generalizing s c d with
  | nil =>
    cases h
    exact ⟨[], c, d, by simp, rfl⟩
  | cons i is ih =>
    obtain ⟨u, hi, hrest⟩ := execAll_cons_next.mp h
    obtain ⟨js, c', d', hjs, hrun⟩ := exec_as_event (hlevel i (List.mem_cons_self ..)) hi c d
    obtain ⟨ks, c'', d'', hks, hrun'⟩ := ih (fun j hj => hlevel j (List.mem_cons_of_mem _ hj)) hrest c' d'
    exact ⟨js ++ ks, c'', d'', fun j hj => (List.mem_append.mp hj).elim (hjs j) (hks j),
      (execAll_append hrun).trans hrun'⟩

/-- Settles O17: simulation, operation by operation, with the reference-tick count and the read output free. -/
theorem referenceLevelRefinesEventLevel : Obligations.ReferenceLevelRefinesEventLevel := by
  intro is s t hlevel h
  obtain ⟨js, c, d, hjs, hrun⟩ := execAll_as_event hlevel h s.tickCnt s.rdData
  exact ⟨js, _, hjs, hrun, rfl⟩

end Sys2Proof.Machine
end

section
/-! PROOFS. The rest of the family of 40_pulse_clock.md: the tie rule and the order of periods (R101), the length of a
period in reference ticks (R106, R108), the refusals of the tick source (R107). -/

namespace Sys2Proof.Machine

open Sys2Proof Sys2Proof.Safety

/-! ### The programmed period (40_pulse_clock.md R101) -/

/-- SETF of a frequency other than 0 programs the rounded quotient of the clamped frequency, less one. -/
theorem period_of_exec_setf {hz : U16} (hne : hz ≠ 0) {s t : State} (h : exec (.setf hz) s = .next t) :
    t.period.toNat = roundQuotient s.params.roundTies 1000000 (min hz.toNat 1000) - 1 := by
  obtain ⟨h1, h2⟩ := clampFreq_range hne
  obtain rfl : setFrequency hz s = t := Host.Outcome.next.inj h
  rw [setFrequency_nonzero hne, program_period, periodOf_toNat _ _ h1 h2, clampFreq_toNat]

/-- The two tie rules round a quotient apart only if it lies halfway from an even number: then up, or to that number. -/
theorem roundQuotient_halfUp_ne_halfEven {n d : Nat} (h : roundQuotient .halfUp n d ≠ roundQuotient .halfEven n d) :
    2 * (n % d) = d ∧ n / d % 2 = 0 := by
  unfold roundQuotient at h
  simp only at h
  split at h
  · exact absurd rfl h
  · split at h
    · exact absurd rfl h
    · split at h
      · exact ⟨by omega, by assumption⟩
      · exact absurd rfl h

/-- Of the frequencies to 1000 Hz only 128 Hz and 640 Hz divide 1 000 000 with a half left over: twice 1 000 000 is
2 ^ 7 * 15625, so with an odd cofactor the frequency is 128 times a divisor of 15625. -/
theorem tie_frequencies {f : Nat} (hle : f ≤ 1000) (htie : 2 * (1000000 % f) = f) (hpos : 0 < f) :
    f = 128 ∨ f = 640 := by
  have hodd : f * (2 * (1000000 / f) + 1) = 2 ^ 7 * 15625 := by
    have hdiv := Nat.div_add_mod 1000000 f
    calc f * (2 * (1000000 / f) + 1) = 2 * (f * (1000000 / f)) + f := by ring
      _ = 2 ^ 7 * 15625 := by omega
  have hcop : Nat.Coprime (2 ^ 7) (2 * (1000000 / f) + 1) :=
    Nat.Coprime.pow_left 7 ((Nat.coprime_two_left).mpr ⟨_, rfl⟩)
  obtain ⟨m, rfl⟩ : 2 ^ 7 ∣ f := hcop.dvd_of_dvd_mul_right ⟨15625, hodd⟩
  generalize 1000000 / (2 ^ 7 * m) = q at hodd
  have hm : m ≤ 7 := by omega
  interval_cases m <;> omega

/-- Settles O22: the rules differ at a tie only, the two tied frequencies are 128 Hz and 640 Hz, and there the quotients
are evaluated. -/
theorem tieRuleMattersAtTwoFrequencies : Obligations.TieRuleMattersAtTwoFrequencies := by
  intro hz s t u hne ht hu
  have hup := period_of_exec_setf hne ht
  have heven := period_of_exec_setf hne hu
  refine ⟨fun h128 h640 => ?_, ?_, ?_⟩
  · apply BitVec.eq_of_toNat_eq
    rw [hup, heven]
    by_contra hdiff
    obtain ⟨htie, -⟩ := roundQuotient_halfUp_ne_halfEven (fun h => hdiff (congrArg (· - 1) h))
    have hpos : 0 < hz.toNat := by bv_omega
    have hnum := tie_frequencies (by omega) htie (by omega)
    bv_omega
  · rintro rfl
    exact ⟨BitVec.eq_of_toNat_eq hup, BitVec.eq_of_toNat_eq heven⟩
  · rintro rfl
    exact ⟨BitVec.eq_of_toNat_eq hup, BitVec.eq_of_toNat_eq heven⟩

/-- A rounded quotient is at most a half away from the exact one. -/
theorem roundsTo_bounds {ties : RoundTies} {n d q : Nat} (h : RoundsTo ties n d q) :
    2 * q * d ≤ 2 * n + d ∧ 2 * n ≤ 2 * q * d + d := by
  cases ties <;> simp only [RoundsTo] at h <;> omega

/-- Rounding half up never rounds a half down. -/
theorem roundsTo_halfUp_lt {n d q : Nat} (h : RoundsTo .halfUp n d q) : 2 * n < 2 * q * d + d := h.2

/-- Rounding a half to even gives an even number. -/
theorem roundsTo_halfEven_even {n d q : Nat} (h : RoundsTo .halfEven n d q)
    (htie : 2 * q * d = 2 * n + d ∨ 2 * n = 2 * q * d + d) : q % 2 = 0 := by
  obtain ⟨hlt, hlt'⟩ | ⟨-, heven⟩ | ⟨-, heven⟩ := h
  · omega
  · exact heven
  · exact heven

/-- The rounded quotient does not grow with the divisor. -/
theorem roundsTo_antitone {ties : RoundTies} {n d d' q q' : Nat} (hd : 0 < d) (hle : d ≤ d') (h : RoundsTo ties n d q)
    (h' : RoundsTo ties n d' q') : q' ≤ q := by
  by_contra hlt
  obtain ⟨-, hbelow⟩ := roundsTo_bounds h
  obtain ⟨habove, -⟩ := roundsTo_bounds h'
  have hnext : 2 * (q + 1) * d' ≤ 2 * q' * d' := Nat.mul_le_mul_right d' (by omega)
  have hexpand : 2 * (q + 1) * d' = 2 * q * d' + 2 * d' := by ring
  have hbase : 2 * q * d ≤ 2 * q * d' := Nat.mul_le_mul_left (2 * q) hle
  -- there is no room left between the halves: both quotients are tied
  cases ties with
  | halfUp =>
    have hstrict := roundsTo_halfUp_lt h
    omega
  | halfEven =>
    have heven := roundsTo_halfEven_even h (.inr (by omega))
    have heven' := roundsTo_halfEven_even h' (.inl (by omega))
    have hsucc : 2 * q' = 2 * (q + 1) := Nat.eq_of_mul_eq_mul_right (hd.trans_le hle) (by omega)
    omega

/-- Settles O23: clamping keeps the order of the frequencies, and rounding turns it round. -/
theorem periodNonIncreasingInFrequency : Obligations.PeriodNonIncreasingInFrequency := by
  intro a b s t u hne hle ht hu
  have hpos : 0 < a.toNat := by bv_omega
  have hneb : b ≠ 0 := by bv_omega
  rw [period_of_exec_setf hne ht, period_of_exec_setf hneb hu]
  apply Nat.sub_le_sub_right
  exact roundsTo_antitone (d := min a.toNat 1000) (d' := min b.toNat 1000) (by omega) (by omega)
    (roundQuotient_spec _ _ _ (by omega)) (roundQuotient_spec _ _ _ (by omega))

/-! ### The reference ticks of a period (40_pulse_clock.md R106, R108) -/

/-- Reference ticks up to the end of the period only count and flag the duty point. -/
theorem execAll_refclk_counts {k : Nat} {s : State} (hen : outputEnabled s = true)
    (hk : s.tickCnt.toNat + k ≤ s.period.toNat) :
    ∃ c b, c.toNat = s.tickCnt.toNat + k ∧
      execAll (List.replicate k .refclk) s = .next { s with tickCnt := c, cmpPending := b } := by
  induction k generalizing s with
  | zero => exact ⟨s.tickCnt, s.cmpPending, rfl, rfl⟩
  | succ k ih =>
    have hlt : s.tickCnt < s.period := by rw [BitVec.lt_def]; omega
    have hcnt : (countReference s).tickCnt.toNat = s.tickCnt.toNat + 1 := toNat_tickCnt_add_one hlt
    obtain ⟨c, b, hc, hrun⟩ := ih (s := countReference s) hen (by rw [hcnt, countReference_period]; omega)
    refine ⟨c, b, by omega, ?_⟩
    rw [List.replicate_succ, execAll_cons (exec_refclk_counts hen hlt), hrun]
    rfl

/-- Settles O16: the ticks to the end of the period count, the next one is the elapsed period. -/
theorem periodLastsItsReferenceTicks : Obligations.PeriodLastsItsReferenceTicks := by
  intro s h hzero
  have hen := outputEnabled_iff.mpr h
  have hcnt : s.tickCnt.toNat = 0 := by rw [hzero]; rfl
  refine ⟨fun k hk => ?_, ?_⟩
  · obtain ⟨c, b, hc, hrun⟩ := execAll_refclk_counts (k := k) hen (by omega)
    refine ⟨_, hrun, by simpa [hcnt] using hc, rfl, rfl, fun _ => ?_⟩
    simp [pulseCw, pulseCcw, BitVec.lt_def, hc, hcnt]
  · obtain ⟨c, b, hc, hrun⟩ := execAll_refclk_counts (k := s.period.toNat) hen (by omega)
    have hwrap : exec .refclk { s with tickCnt := c, cmpPending := b } =
        .next (periodElapsed { s with tickCnt := c, cmpPending := b }) := by
      refine exec_refclk_wraps hen ?_
      rw [BitVec.le_def]
      exact (show s.period.toNat ≤ c.toNat by omega)
    refine ⟨_, ?_, rfl, rfl, congrArg State.trace (periodElapsed_eq { s with tickCnt := c, cmpPending := b })⟩
    rw [List.replicate_succ', execAll_append hrun, execAll_cons hwrap]
    rfl

/-- Settles O15: a false guard refuses. -/
theorem tickSourceRefusedUnlessReady : Obligations.TickSourceRefusedUnlessReady := by
  intro s
  refine ⟨fun hcw hccw => ?_, fun h => ?_⟩
  · have hoff : ¬ outputEnabled s = true := by simp [outputEnabled, hcw, hccw]
    exact ⟨if_neg hoff, if_neg hoff, if_neg hoff⟩
  · exact if_neg (Bool.eq_false_iff.mp (Bool.and_eq_false_iff.mpr h))

end Sys2Proof.Machine
end

section
/-! PROOFS. The rest of the families of 41_stepper_driver.md to 43_sequence_controller.md without the driver's
invariants: STOP twice (R137), runs of PUSH (R165), of RINC and RDEC (R173) and of MSTICK (R194), the register read
(R172, 10_state.md R39), StartMoving (R196), completion (20_memory.md R63) and reset (70_reset_and_hazards.md R250). -/

namespace Sys2Proof.Machine

open Sys2Proof Sys2Proof.Safety

/-! ### STOP twice (41_stepper_driver.md R137) -/

/-- Settles O19: after one STOP nothing moves, so the second fires its callback only if the mode is not edge-only. -/
theorem stopIdempotentOnRegisters : Obligations.StopIdempotentOnRegisters := by
  intro s
  refine ⟨stop s, stop (stop s), rfl, rfl, rfl, rfl, rfl, ?_⟩
  change (stop s).trace ++ stopEvents (stop s) = _
  rw [trace_append_stopEvents]
  exact if_congr (by simp) rfl rfl

/-! ### Runs of PUSH (42_motion_state.md R165) -/

/-- The buffer after the samples `l`: the index counts them modulo 8, the last eight stand in their slots, and slots
not yet reached hold 0. -/
structure Holds (l : List U16) (t : State) : Prop where
  index  : t.bufIdx.toNat = l.length % 8
  latest : ∀ (j : Nat) (hj : j < l.length), l.length ≤ j + 8 → t.buf[j % 8]? = some l[j]
  zeros  : ∀ k, k < 8 → l.length ≤ k → t.buf[k]? = some 0

/-- One more sample takes the slot of the one eight before it. -/
theorem Holds.push {l : List U16} {s : State} (h : Holds l s) (v : U16) :
    ∃ t, exec (.push v) s = .next t ∧ Holds (l ++ [v]) t := by
  obtain ⟨-, hpush⟩ := pushResult
  obtain ⟨t, hexec, -, hidx, hslot⟩ := hpush v s
  have hslot' : ∀ k, k < 8 → t.buf[k]? = if k = l.length % 8 then some v else s.buf[k]? := by
    intro k hk
    rw [Vector.getElem?_eq_getElem hk, Vector.getElem?_eq_getElem hk, hslot k hk, h.index]
    exact apply_ite some _ _ _
  refine ⟨t, hexec, ?_, fun j hj hlast => ?_, fun k hk hlen => ?_⟩
  · rw [hidx, h.index, List.length_append]
    simp
  · rw [List.length_append, List.length_singleton] at hj hlast
    rw [hslot' _ (Nat.mod_lt _ (by decide))]
    by_cases hnew : j = l.length
    · subst hnew
      simp
    · rw [if_neg (by omega), h.latest j (by omega) (by omega), List.getElem_append_left]
  · rw [List.length_append, List.length_singleton] at hlen
    rw [hslot' k hk, if_neg (by omega), h.zeros k hk (by omega)]

/-- After a run of PUSH the buffer holds all samples pushed. -/
theorem Holds.pushes {l : List U16} {s : State} (h : Holds l s) (l' : List U16) :
    ∃ t, execAll (l'.map .push) s = .next t ∧ Holds (l ++ l') t := by
  induction l' generalizing l s with
  | nil => exact ⟨s, rfl, by simpa using h⟩
  | cons v l' ih =>
    obtain ⟨u, hexec, hu⟩ := h.push v
    obtain ⟨t, hrun, ht⟩ := ih hu
    exact ⟨t, (execAll_cons hexec).trans hrun, by simpa using ht⟩

/-- Settles O35: at reset the buffer holds no samples, and every PUSH adds one. -/
theorem bufferLaw : Obligations.BufferLaw := by
  intro l
  have hreset : Holds [] State.reset := ⟨rfl, nofun, by decide⟩
  obtain ⟨t, hrun, hindex, hlatest, hzeros⟩ := hreset.pushes l
  exact ⟨t, hrun, hindex, hlatest, hzeros⟩

/-! ### Runs of RINC and RDEC (42_motion_state.md R173) -/

/-- Settles O37: each operation is its saturating update, so a run is their fold. -/
theorem roundCountFolds : Obligations.RoundCountFolds := by
  intro is
  induction is with
  | nil => exact fun s _ => ⟨s.roundCount, rfl, rfl⟩
  | cons i is ih =>
    intro s hall
    have hfirst : ∃ r : U16, exec i s = .next { s with roundCount := r } ∧
        r.toNat = if i = .rinc then min (s.roundCount.toNat + 1) 65535 else max s.roundCount.toNat 1 - 1 := by
      obtain rfl | rfl := hall i (List.mem_cons_self ..)
      · obtain ⟨r, hr, hexec⟩ := exec_rinc_saturates s
        exact ⟨r, hexec, hr⟩
      · obtain ⟨r, hr, hexec⟩ := exec_rdec_saturates s
        exact ⟨r, hexec, by rw [if_neg (by decide)]; omega⟩
    obtain ⟨r, hexec, hr⟩ := hfirst
    obtain ⟨r', hrun, hr'⟩ := ih { s with roundCount := r } (fun j hj => hall j (List.mem_cons_of_mem _ hj))
    refine ⟨r', (execAll_cons hexec).trans hrun, ?_⟩
    rw [hr', List.foldl_cons, ← hr]

/-! ### Runs of MSTICK (43_sequence_controller.md R194) -/

/-- A run of MSTICK adds its length to the clock. -/
theorem execAll_mstick (k : Nat) (s : State) :
    execAll (List.replicate k .mstick) s = .next { s with nowMs := s.nowMs + BitVec.ofNat 32 k } := by
  induction k generalizing s with
  | zero => simp [execAll]
  | succ k ih =>
    have hexec : exec .mstick s = .next { s with nowMs := s.nowMs + 1 } := rfl
    have hsum : s.nowMs + 1 + BitVec.ofNat 32 k = s.nowMs + BitVec.ofNat 32 (k + 1) := by
      rw [BitVec.ofNat_add, BitVec.add_assoc, BitVec.add_comm (BitVec.ofNat 32 k)]
      rfl
    rw [List.replicate_succ, execAll_cons hexec, ih, ← hsum]

/-- Settles O51: START records the clock, and the clock's sums and differences are modulo 2^32. -/
theorem elapsedCountsMilliseconds : Obligations.ElapsedCountsMilliseconds := by
  intro s hrun
  refine ⟨_, exec_start_idle hrun, fun k hk => ⟨_, execAll_mstick k _, ?_⟩⟩
  have helapsed : s.nowMs + BitVec.ofNat 32 k - s.nowMs = BitVec.ofNat 32 k := by
    rw [BitVec.add_comm, BitVec.add_sub_cancel]
  exact (congrArg BitVec.toNat helapsed).trans ((BitVec.toNat_ofNat ..).trans (Nat.mod_eq_of_lt hk))

/-! ### The register read (42_motion_state.md R172, 10_state.md R39) -/

/-- RDREG of an address that `RegRead` answers for. -/
theorem readsAs_of_regRead {s : State} {addr : Byte} {v : U32} (h : regRead addr s = some v) : ReadsAs s addr v :=
  execRdreg_next.mpr ⟨v, h, rfl⟩

/-- Settles O39: `RegRead` answers exactly at the mapped addresses. -/
theorem rdregCompletesWhenMapped : Obligations.RdregCompletesWhenMapped := by
  intro addr s
  have hsome := regRead_isSome addr s
  refine ⟨fun h => ?_, fun h => ?_⟩
  · obtain ⟨v, hv⟩ := Option.isSome_iff_exists.mp (hsome.trans h)
    exact ⟨v, readsAs_of_regRead hv⟩
  · have hnone := Option.isNone_iff_eq_none.mp (Option.isSome_eq_false_iff.mp (hsome.trans h))
    simp only [exec, execRdreg, hnone]

/-- A zero-extended register reads as the same number. -/
theorem zext_toNat {n : Nat} (hn : n ≤ 32) (v : BitVec n) : (zext v).toNat = v.toNat :=
  BitVec.toNat_setWidth_of_le hn

/-- A sign-extended register reads as the same integer. -/
theorem sext_toInt (v : U16) : (sext v).toInt = v.toInt := BitVec.toInt_signExtend_of_le (by decide)

/-- The bits of a direction are its number. -/
theorem direction_bits_toNat (d : Direction) : d.bits.toNat = directionNumber d := by cases d <;> rfl

/-- Each buffer slot is read at its own address. -/
theorem readsAs_buf (s : State) {k : Nat} (hk : k < 8) : ReadsAs s (BitVec.ofNat 8 (0x18 + k)) (sext s.buf[k]) := by
  interval_cases k <;> rfl

/-- Settles O40: the read map register by register; extension keeps the number or the integer. -/
theorem registerReadValues : Obligations.RegisterReadValues := fun s =>
  ⟨⟨_, rfl, (zext_toNat (by decide) _).trans (direction_bits_toNat _)⟩, ⟨_, rfl, zext_toNat (by decide) _⟩,
    ⟨_, rfl, zext_toNat (by decide) _⟩, rfl, rfl, rfl, ⟨_, rfl, zext_toNat (by decide) _⟩,
    ⟨_, rfl, zext_toNat (by decide) _⟩, ⟨_, rfl, sext_toInt _⟩, ⟨_, rfl, zext_toNat (by decide) _⟩,
    ⟨_, rfl, zext_toNat (by decide) _⟩, ⟨_, rfl, zext_toNat (by decide) _⟩, ⟨_, rfl, zext_toNat (by decide) _⟩,
    rfl, rfl, fun _ hk => ⟨_, readsAs_buf s hk, sext_toInt _⟩⟩

/-- A zero-extended register reads bit by bit as the register, with zeros above it. -/
theorem zext_getLsbD {w : Nat} (hw : w ≤ 32) (v : BitVec w) (n : Nat) : (zext v).getLsbD n = v.getLsbD n := by
  by_cases hn : n < 32
  · simp [zext, hn]
  · rw [zext, BitVec.getLsbD_of_ge _ n (by omega), BitVec.getLsbD_of_ge v n (by omega)]

/-- The bits of eight concatenated flags, the last flag in bit 0. -/
theorem getLsbD_byteOfFlags : ∀ b₇ b₆ b₅ b₄ b₃ b₂ b₁ b₀ : Bool,
    let bits : BitVec 8 := BitVec.ofBool b₇ ++ BitVec.ofBool b₆ ++ BitVec.ofBool b₅ ++ BitVec.ofBool b₄
      ++ BitVec.ofBool b₃ ++ BitVec.ofBool b₂ ++ BitVec.ofBool b₁ ++ BitVec.ofBool b₀
    bits.getLsbD 0 = b₀ ∧ bits.getLsbD 1 = b₁ ∧ bits.getLsbD 2 = b₂ ∧ bits.getLsbD 3 = b₃ ∧ bits.getLsbD 4 = b₄ ∧
      bits.getLsbD 5 = b₅ ∧ bits.getLsbD 6 = b₆ ∧ bits.getLsbD 7 = b₇ := by decide

/-- DRV_STATUS bit by bit. -/
theorem drvStatus_getLsbD (s : State) (n : Nat) : (drvStatus s).getLsbD n = match n with
    | 0 => s.isMoving
    | 1 => s.countingEnabled
    | 2 => s.cbEn
    | 3 => s.tickIrqEn
    | 4 => s.tickPending
    | 5 => s.cmpPending
    | 6 => s.outCwEn
    | 7 => s.outCcwEn
    | _ => false := by
  obtain ⟨h0, h1, h2, h3, h4, h5, h6, h7⟩ := getLsbD_byteOfFlags s.outCcwEn s.outCwEn s.cmpPending s.tickPending
    s.tickIrqEn s.cbEn s.countingEnabled s.isMoving
  match n with
  | 0 => exact h0
  | 1 => exact h1
  | 2 => exact h2
  | 3 => exact h3
  | 4 => exact h4
  | 5 => exact h5
  | 6 => exact h6
  | 7 => exact h7
  | n + 8 => exact BitVec.getLsbD_of_ge _ _ (by omega)

/-- The bits of three pins over five zeros over three flags. -/
theorem getLsbD_pinsAndFlags : ∀ (pins : BitVec 3) (d h c : Bool),
    let bits : BitVec 11 := pins ++ (0 : BitVec 5) ++ (BitVec.ofBool d ++ BitVec.ofBool h ++ BitVec.ofBool c)
    bits.getLsbD 0 = c ∧ bits.getLsbD 1 = h ∧ bits.getLsbD 2 = d ∧
      (∀ k : Fin 5, bits.getLsbD (k + 3) = false) ∧ ∀ k : Fin 3, bits.getLsbD (k + 8) = pins.getLsbD k := by decide

/-- SWITCHES bit by bit. -/
theorem switchesStatus_getLsbD (s : State) (n : Nat) : (switchesStatus s).getLsbD n = match n with
    | 0  => s.switchCurrent
    | 1  => s.switchHoldoff
    | 2  => s.switchDivision
    | 8  => s.swOut.getLsbD 0
    | 9  => s.swOut.getLsbD 1
    | 10 => s.swOut.getLsbD 2
    | _  => false := by
  obtain ⟨h0, h1, h2, hgap, hpins⟩ :=
    getLsbD_pinsAndFlags s.swOut s.switchDivision s.switchHoldoff s.switchCurrent
  match n with
  | 0 => exact h0
  | 1 => exact h1
  | 2 => exact h2
  | 3 => exact hgap 0
  | 4 => exact hgap 1
  | 5 => exact hgap 2
  | 6 => exact hgap 3
  | 7 => exact hgap 4
  | 8 => exact hpins 0
  | 9 => exact hpins 1
  | 10 => exact hpins 2
  | n + 11 => exact BitVec.getLsbD_of_ge _ _ (by omega)

/-- MIRROR_STATUS as the sum of its fields. -/
theorem mirrorStatus_toNat (s : State) :
    (mirrorStatus s).toNat = (if s.motorMoving then 1 else 0) + 2 * directionNumber s.currentDirection := by
  unfold mirrorStatus
  cases s.motorMoving <;> cases s.currentDirection <;> rfl

/-- SEQ_STATUS as the sum of its fields. -/
theorem seqStatus_toNat (s : State) : (seqStatus s).toNat = phaseNumber s.seqState +
    (if s.seqRunning then 256 else 0) + (if s.seqState = .idle then 0 else 512) := by
  unfold seqStatus isRunning
  cases s.seqRunning <;> cases s.seqState <;> rfl

/-- Settles O41: each packed register is its read value, bit by bit or as a number. -/
theorem statusReadBits : Obligations.StatusReadBits := fun s =>
  ⟨⟨_, rfl, fun n => (zext_getLsbD (by decide) _ n).trans (drvStatus_getLsbD s n)⟩,
    ⟨_, rfl, fun n => (zext_getLsbD (by decide) _ n).trans (switchesStatus_getLsbD s n)⟩,
    ⟨_, rfl, (zext_toNat (by decide) _).trans (mirrorStatus_toNat s)⟩,
    ⟨_, rfl, (zext_toNat (by decide) _).trans (seqStatus_toNat s)⟩⟩

/-! ### StartMoving (43_sequence_controller.md R194, R196) -/

theorem exec_seqproc_startMoving {s : State} (hrun : s.seqRunning = true) (hp : s.seqState = .startMoving) :
    exec .seqproc s = .next (phaseStartMoving s) := by
  rw [exec_seqproc_running hrun, phaseBody, hp]

/-- Before the start delay StartMoving does nothing. -/
theorem phaseStartMoving_early {s : State} (h : millisSince s.phaseStart s.nowMs < 100) : phaseStartMoving s = s :=
  if_neg fun hpassed => absurd (delayPassed_iff.mp hpassed) (Nat.not_le.mpr h)

/-- After the start delay StartMoving programs `freq` and starts the clockwise continuous move. -/
theorem phaseStartMoving_late {s : State} (h : 100 ≤ millisSince s.phaseStart s.nowMs) :
    phaseStartMoving s = enterPhase .monitorCurrent (continueStart .clockwise (setFrequency s.freq s)) := by
  have hpassed : delayPassed Config.startDelay s = true := delayPassed_iff.mpr h
  rw [phaseStartMoving, if_pos hpassed, continueMove_started rfl]

/-- Settles O45: the continuous move starts from the programmed state, or with `freq = 0` from the stopped one, whose
callback is that of its `Stop()`. -/
theorem startMovingPhase : Obligations.StartMovingPhase := by
  intro s hrun hp
  refine ⟨fun hearly => ?_, fun hlate hfreq => ?_, fun hlate hfreq => ?_⟩
  · rw [exec_seqproc_startMoving hrun hp, phaseStartMoving_early hearly]
  · obtain ⟨h1, h2⟩ := clampFreq_range hfreq
    refine ⟨_, clampFreq_toNat s.freq ▸ roundQuotient_spec s.params.roundTies 1000000 _ h1, ?_⟩
    rw [exec_seqproc_startMoving hrun hp, phaseStartMoving_late hlate, setFrequency_nonzero hfreq, program,
      dutyOf_periodOf _ h1 h2]
    simp [enterPhase, continueStart, Config.noLimit, periodOf, Config.referenceRate, clampFreq_toNat]
  · have hstop : setFrequency s.freq s = stop s := by rw [hfreq, setFrequency_zero]
    rw [exec_seqproc_startMoving hrun hp, phaseStartMoving_late hlate, hstop, stop, trace_append_stopEvents]
    rfl

/-! ### Completion (20_memory.md R63) and reset (70_reset_and_hazards.md R250) -/

/-- An operation that answers a next state in both branches completes. -/
theorem exists_ite_next {p : Prop} [Decidable p] {u v : State} :
    ∃ t, (if p then (.next u : Result) else .next v) = .next t := by
  split <;> exact ⟨_, rfl⟩

/-- Settles O12: only the guards of the tick source and an unmapped address refuse. -/
theorem everyOtherAgentAlwaysEnabled : Obligations.EveryOtherAgentAlwaysEnabled := by
  intro i s hwf hagent
  cases i
  case tmrupd | tmrcmp | tick | refclk => exact absurd rfl hagent
  case drvproc | start | seqproc | rinc | rdec => exact exists_ite_next
  case wrsw name val => cases name <;> exact ⟨_, rfl⟩
  case rdreg addr =>
    obtain ⟨hmapped, -⟩ := rdregCompletesWhenMapped addr s
    obtain ⟨v, hv⟩ := hmapped hwf
    exact ⟨_, hv⟩
  all_goals exact ⟨_, rfl⟩

/-- The four operations of the pulse clock. -/
theorem agent_eq_tmr {i : Instr} : i.agent = .tmr ↔ i = .tmrupd ∨ i = .tmrcmp ∨ i = .refclk ∨ i = .tick := by
  cases i <;> simp [Instr.agent]

/-- Settles O53: at reset no output is enabled and no tick is pending, which is what the tick source needs; every other
operation completes in every state. -/
theorem enabledAfterReset : Obligations.EnabledAfterReset := by
  intro i hwf
  obtain ⟨hguard, htick⟩ := tickSourceRefusedUnlessReady State.reset
  obtain ⟨hupd, hcmp, hclk⟩ := hguard rfl rfl
  have htick := htick (.inl rfl)
  refine ⟨fun ⟨t, ht⟩ => ⟨?_, ?_, ?_, ?_⟩, fun ⟨h1, h2, h3, h4⟩ => ?_⟩
  · rintro rfl
    nomatch hupd.symm.trans ht
  · rintro rfl
    nomatch hcmp.symm.trans ht
  · rintro rfl
    nomatch hclk.symm.trans ht
  · rintro rfl
    nomatch htick.symm.trans ht
  · exact everyOtherAgentAlwaysEnabled i State.reset hwf (mt agent_eq_tmr.mp (by simp [h1, h2, h3, h4]))

/-- Settles O52: RESET has no case. -/
theorem resetResult : Obligations.ResetResult := ⟨by decide, fun _ => rfl⟩

end Sys2Proof.Machine
end

section
/-! PROOFS. What each operation can do, said once: an inversion of `exec` with one case per branch of an operation, and
what follows case by case: which registers an operation can write (10_state.md R22 to R35), what it appends to the event
trace (00_scope.md R16), how it moves the phase (R37), and that it keeps the five invariants (R40 to R44). -/

namespace Sys2Proof.Machine

open Sys2Proof Sys2Proof.Safety

/-! ### Every branch of every operation -/

/-- The next states of one phase body (43_sequence_controller.md R195 to R201). -/
inductive PollsTo (s : State) : State → Prop
  | setupSwitches (hp : s.seqState = .setupSwitches) : PollsTo s (phaseSetupSwitches s)
  | startWaits (hp : s.seqState = .startMoving) : PollsTo s s
  | startMoves (hp : s.seqState = .startMoving) :
      PollsTo s (enterPhase .monitorCurrent (continueStart .clockwise (setFrequency s.freq s)))
  | monitorStays (hp : s.seqState = .monitorCurrent) : PollsTo s s
  | monitorPasses (hp : s.seqState = .monitorCurrent) : PollsTo s (enterPhase .adjustSwitches s)
  | adjustSwitches (hp : s.seqState = .adjustSwitches) : PollsTo s (phaseAdjustSwitches s)
  | finalStops (hp : s.seqState = .finalMove) : PollsTo s (stop s)
  | finalMoves (hp : s.seqState = .finalMove) : PollsTo s (setPhase .complete
      (moveStart .clockwise Config.finalSteps (program s.params.originFreq.hz (moveCounts Config.finalSteps (stop s)))))
  | completeWaits (hp : s.seqState = .complete) : PollsTo s s
  | completeEnds (hp : s.seqState = .complete) : PollsTo s { s with seqState := .idle, seqRunning := false }
  | outside (hp : s.seqState = .idle ∨ s.seqState = .unrecognized) : PollsTo s (phaseIdle s)

/-- A phase body answers by one of its branches. -/
theorem pollsTo_phaseBody (s : State) : PollsTo s (phaseBody s) := by
  unfold phaseBody
  split
  case h_1 hp => exact .outside (.inl hp)
  case h_2 hp => exact .setupSwitches hp
  case h_3 hp =>
    by_cases hlate : 100 ≤ millisSince s.phaseStart s.nowMs
    · rw [phaseStartMoving_late hlate]
      exact .startMoves hp
    · rw [phaseStartMoving_early (by omega)]
      exact .startWaits hp
  case h_4 hp =>
    unfold phaseMonitorCurrent
    split
    · exact .monitorPasses hp
    · exact .monitorStays hp
  case h_5 hp => exact .adjustSwitches hp
  case h_6 hp =>
    by_cases hlate : 50 ≤ millisSince s.phaseStart s.nowMs
    · rw [phaseFinalMove_late hlate]
      exact .finalMoves hp
    · rw [phaseFinalMove_early (by omega)]
      exact .finalStops hp
  case h_7 hp =>
    unfold phaseComplete
    split
    · exact .completeWaits hp
    · exact .completeEnds hp
  case h_8 hp => exact .outside (.inr hp)

/-- The next states of one operation, one case per branch; DRVINIT and RESET, which write every register of the driver,
are one case. -/
inductive StepsTo (s : State) : Instr → State → Prop
  | initialises {i : Instr} {t : State} (hi : initialises i = true) (h : exec i s = .next t) : StepsTo s i t
  -- the driver's procedures
  | setfZero : StepsTo s (.setf 0) (stop s)
  | setf {hz : U16} (hne : hz ≠ 0) : StepsTo s (.setf hz) (program (clampFreq hz) s)
  | moveStops {d : Direction} {n : U16} (h : n = 0 ∨ asksMotion d = false) : StepsTo s (.move d n) (stop s)
  | moveStarts {d : Direction} {n : U16} (hn : n ≠ 0) (hd : asksMotion d = true) :
      StepsTo s (.move d n) (moveStart d n (program s.params.originFreq.hz (moveCounts n s)))
  | cmoveStops {d : Direction} (h : asksMotion d = false) : StepsTo s (.cmove d) (stop s)
  | cmoveStarts {d : Direction} (h : asksMotion d = true) : StepsTo s (.cmove d) (continueStart d s)
  | stops : StepsTo s .stop (stop s)
  | drvprocIdle : StepsTo s .drvproc s
  | drvprocMirrors : StepsTo s .drvproc (mirrorPulses s)
  | drvprocStops : StepsTo s .drvproc (stop s)
  -- the other writes of the command port
  | setcb {en : Bool} : StepsTo s (.setcb en) { s with cbEn := en }
  | rstcnt : StepsTo s .rstcnt { s with currentPulses := 0 }
  | wrfreq {hz : U16} : StepsTo s (.wrfreq hz) { s with freq := clampFreq hz }
  | wrthr {thr : U16} : StepsTo s (.wrthr thr) { s with threshold := thr }
  | wrswCurrent {b : Bool} : StepsTo s (.wrsw .current b) { s with switchCurrent := b }
  | wrswHoldoff {b : Bool} : StepsTo s (.wrsw .holdoff b) { s with switchHoldoff := b }
  | wrswDivision {b : Bool} : StepsTo s (.wrsw .division b) { s with switchDivision := b }
  | swsync : StepsTo s .swsync (propagate s)
  | rdreg {addr : Byte} {v : U32} : StepsTo s (.rdreg addr) { s with rdData := some v }
  -- the sequencer
  | seqinit : StepsTo s .seqinit { s with seqState := .idle, seqRunning := false, phaseStart := 0 }
  | startAgain (hrun : s.seqRunning = true) : StepsTo s .start s
  | starts (hrun : s.seqRunning = false) : StepsTo s .start (startRunning (enterPhase .setupSwitches s))
  | pollIdle (hrun : s.seqRunning = false) : StepsTo s .seqproc s
  | polls {t : State} (hrun : s.seqRunning = true) (h : PollsTo s t) : StepsTo s .seqproc t
  -- the tick source
  | tmrupd : StepsTo s .tmrupd (periodElapsed s)
  | tmrcmp : StepsTo s .tmrcmp { s with cmpPending := true }
  | tickUncounted (hready : tickReady s = true) (hcount : s.countingEnabled = false) : StepsTo s .tick (clearTick s)
  | tickCounts (hready : tickReady s = true) (hcount : s.countingEnabled = true)
      (hbelow : s.currentPulses + 1 < s.targetPulses) : StepsTo s .tick (onePulse (clearTick s))
  | tickStops (hready : tickReady s = true) (hcount : s.countingEnabled = true)
      (hreached : s.targetPulses ≤ s.currentPulses + 1) : StepsTo s .tick (stop (onePulse (clearTick s)))
  | refclkWraps : StepsTo s .refclk (periodElapsed s)
  | refclkCounts : StepsTo s .refclk (countReference s)
  -- the other agents
  | push {v : U16} {b : Vector U16 8} {k : BitVec 3} : StepsTo s (.push v) { s with buf := b, bufIdx := k }
  | rinc {r : U16} : StepsTo s .rinc { s with roundCount := r }
  | rdec {r : U16} : StepsTo s .rdec { s with roundCount := r }
  | mstick : StepsTo s .mstick { s with nowMs := s.nowMs + 1 }

/-- An operation that completes answers by one of its branches. -/
theorem stepsTo_of_exec {i : Instr} {s t : State} (h : exec i s = .next t) : StepsTo s i t := by
  cases i
  case drvinit | reset => exact .initialises rfl h
  case setf hz =>
    by_cases hz0 : hz = 0
    · subst hz0
      cases h
      exact .setfZero
    · cases (congrArg Host.Outcome.next (setFrequency_nonzero hz0 s)).symm.trans h
      exact .setf hz0
  case move d n =>
    by_cases hdeg : n = 0 ∨ asksMotion d = false
    · cases (congrArg Host.Outcome.next (boundedMove_degraded hdeg s)).symm.trans h
      exact .moveStops hdeg
    · obtain ⟨hn, hd⟩ := not_or.mp hdeg
      have hd := Bool.eq_true_of_not_eq_false hd
      cases (exec_move_started hn hd s).symm.trans h
      exact .moveStarts hn hd
  case cmove d =>
    cases hd : asksMotion d with
    | false =>
      cases (congrArg Host.Outcome.next (continueMove_degraded hd s)).symm.trans h
      exact .cmoveStops hd
    | true =>
      cases (exec_cmove_started hd s).symm.trans h
      exact .cmoveStarts hd
  case drvproc =>
    obtain ⟨-, rfl⟩ | ⟨-, rfl⟩ := execDrvproc_next.mp h
    · split
      · exact .drvprocStops
      · exact .drvprocMirrors
    · exact .drvprocIdle
  case rdreg addr =>
    obtain ⟨v, -, rfl⟩ := execRdreg_next.mp h
    exact .rdreg
  case start =>
    obtain ⟨hrun, rfl⟩ | ⟨hrun, rfl⟩ := execStart_next.mp h
    · exact .startAgain hrun
    · exact .starts hrun
  case seqproc =>
    obtain ⟨hrun, rfl⟩ | ⟨hrun, rfl⟩ := execSeqproc_next.mp h
    · exact .polls hrun (pollsTo_phaseBody s)
    · exact .pollIdle hrun
  case tmrupd =>
    obtain ⟨-, rfl⟩ := execTmrupd_next.mp h
    exact .tmrupd
  case tmrcmp =>
    obtain ⟨-, rfl⟩ := execTmrcmp_next.mp h
    exact .tmrcmp
  case tick =>
    obtain ⟨hready, ⟨hcount, rfl⟩ | ⟨hcount, rfl⟩⟩ := execTick_next.mp h
    · obtain ⟨hreached, heq⟩ | ⟨hbelow, heq⟩ := countPulse_cases (clearTick s) <;> rw [heq]
      · exact .tickStops hready hcount hreached
      · exact .tickCounts hready hcount hbelow
    · exact .tickUncounted hready hcount
  case refclk =>
    obtain ⟨-, ⟨-, rfl⟩ | ⟨-, rfl⟩⟩ := execRefclk_next.mp h
    · exact .refclkWraps
    · exact .refclkCounts
  case rinc =>
    obtain ⟨r, -, hnext⟩ := exec_rinc_saturates s
    cases hnext.symm.trans h
    exact .rinc
  case rdec =>
    obtain ⟨r, -, hnext⟩ := exec_rdec_saturates s
    cases hnext.symm.trans h
    exact .rdec
  -- one branch only
  case stop => cases h; exact .stops
  case setcb => cases h; exact .setcb
  case rstcnt => cases h; exact .rstcnt
  case wrfreq => cases h; exact .wrfreq
  case wrthr => cases h; exact .wrthr
  case wrsw name val =>
    cases name <;> cases h
    · exact .wrswCurrent
    · exact .wrswHoldoff
    · exact .wrswDivision
  case swsync => cases h; exact .swsync
  case seqinit => cases h; exact .seqinit
  case push => cases h; exact .push
  case mstick => cases h; exact .mstick

/-- DRVINIT and RESET are the operations that write every register of the driver. -/
theorem initialises_iff {i : Instr} : initialises i = true ↔ i = .drvinit ∨ i = .reset := by
  cases i <;> simp [initialises]

/-! ### The writers of every register (10_state.md R22 to R35) -/

/-- No phase body writes the handler's flag, the configuration but the switches, the buffer, the round count or the
clock. -/
theorem PollsTo.frame {s t : State} (h : PollsTo s t) : t.cbEn = s.cbEn ∧ t.freq = s.freq ∧ t.threshold = s.threshold ∧
    t.buf = s.buf ∧ t.bufIdx = s.bufIdx ∧ t.roundCount = s.roundCount ∧ t.nowMs = s.nowMs := by
  cases h <;> simp [phaseSetupSwitches_eq, phaseAdjustSwitches_eq, phaseIdle]

/-- Settles O57: branch by branch, the registers that a branch does not write are those of the state before. -/
theorem driverRegisterWriters : Obligations.DriverRegisterWriters := by
  intro i s t h
  cases stepsTo_of_exec h
  case initialises hi _ => simp [hi]
  case setf hz hne =>
    have hprogram : canProgram (.setf hz) = true := by rw [canProgram, decide_eq_false hne]; rfl
    simp [hprogram]
  case polls hpoll =>
    obtain ⟨hcb, -⟩ := hpoll.frame
    simp [canStop, canMove, canContinue, canProgram, hcb]
  all_goals simp [canStop, canMove, canContinue, canProgram]

/-- Settles O58: branch by branch, as for the driver; of the registers of MotionState DRVINIT writes the mirror only. -/
theorem motionRegisterWriters : Obligations.MotionRegisterWriters := by
  intro i s t h
  cases stepsTo_of_exec h
  case initialises hi _ =>
    obtain rfl | rfl := initialises_iff.mp hi
    · cases h
      simp [initialises]
    · simp [initialises]
  case polls hpoll => simp [canStop, hpoll.frame]
  all_goals simp [canStop]

/-! ### The event trace (00_scope.md R16) -/

/-- What a completing operation appends to the trace: `l`, with at most one callback in it, and that only if a handler
is registered and the operation may stop. -/
def Appends (s t : State) (mayStop : Bool) : Prop :=
  ∃ l, t.trace = s.trace ++ l ∧ callbacks l ≤ 1 ∧ (callbacks l = 1 → s.cbEn = true ∧ mayStop = true)

/-- Events that are no callback are appended by any operation. -/
theorem appends_of_no_callback {s t : State} {b : Bool} (l : List Event) (ht : t.trace = s.trace ++ l)
    (hl : callbacks l = 0) : Appends s t b :=
  ⟨l, ht, by omega, fun h => by omega⟩

/-- An operation that keeps the trace appends nothing. -/
theorem appends_of_trace_eq {s t : State} {b : Bool} (ht : t.trace = s.trace) : Appends s t b :=
  appends_of_no_callback [] (by simp [ht]) rfl

/-- `Stop()` appends at most one callback, with a handler registered. -/
theorem callbacks_stopEvents (s : State) :
    callbacks (stopEvents s) ≤ 1 ∧ (callbacks (stopEvents s) = 1 → s.cbEn = true) := by
  unfold stopEvents
  split
  · rename_i hfires
    obtain ⟨hcb, -⟩ := Bool.and_eq_true_iff.mp hfires
    exact ⟨le_rfl, fun _ => hcb⟩
  · exact ⟨Nat.zero_le 1, nofun⟩

/-- An operation that appends what `Stop()` does. -/
theorem appends_of_stop {s t : State} (ht : t.trace = (stop s).trace) : Appends s t true := by
  obtain ⟨hle, hcb⟩ := callbacks_stopEvents s
  exact ⟨stopEvents s, ht, hle, fun h => ⟨hcb h, rfl⟩⟩

/-- The pulse events of a period are no callbacks. -/
theorem callbacks_pulseEvents (s : State) : callbacks (pulseEvents s) = 0 := by
  unfold pulseEvents
  cases s.outCwEn <;> cases s.outCcwEn <;> rfl

/-- A phase body stops the driver at most once. -/
theorem PollsTo.appends {s t : State} (h : PollsTo s t) : Appends s t true := by
  cases h
  case startMoves =>
    by_cases hfreq : s.freq = 0
    · have hstop : setFrequency s.freq s = stop s := by rw [hfreq, setFrequency_zero]
      exact appends_of_stop (by simp [hstop])
    · exact appends_of_trace_eq (by simp [setFrequency_nonzero hfreq])
  case finalStops | finalMoves => exact appends_of_stop rfl
  case setupSwitches | adjustSwitches => exact appends_of_no_callback _ rfl rfl
  all_goals exact appends_of_trace_eq rfl

/-- Settles O59: branch by branch, an operation appends what `Stop()` does, events that are no callback, or nothing. -/
theorem traceGrowsByAtMostOneCallback : Obligations.TraceGrowsByAtMostOneCallback := by
  intro i s t hreset h
  cases stepsTo_of_exec h
  case initialises hi _ =>
    obtain rfl | rfl := initialises_iff.mp hi
    · cases h
      exact appends_of_trace_eq rfl
    · exact absurd rfl hreset
  case polls hpoll => exact hpoll.appends
  case setfZero | moveStops | cmoveStops | stops | drvprocStops | tickStops => exact appends_of_stop rfl
  case tmrupd | refclkWraps => exact appends_of_no_callback _ rfl (callbacks_pulseEvents s)
  case swsync => exact appends_of_no_callback _ rfl rfl
  all_goals exact appends_of_trace_eq rfl

/-! ### The phase (10_state.md R37) -/

/-- A phase body moves the phase one position on, if at all. -/
theorem PollsTo.seqState {s t : State} (h : PollsTo s t) (hne : t.seqState ≠ s.seqState) :
    s.seqState ≠ .idle ∧ t.seqState = nextPhase s.seqState := by
  cases h
  case setupSwitches hp | startMoves hp | monitorPasses hp | adjustSwitches hp | finalMoves hp | completeEnds hp =>
    rw [hp]
    exact ⟨nofun, rfl⟩
  all_goals exact absurd rfl hne

/-- Settles O49: only the operations of the sequencer and RESET write the phase; START does from Idle, where a
consistent state that is not running is. -/
theorem phaseAdvancesInOrder : Obligations.PhaseAdvancesInOrder := by
  intro i s t ⟨hknown, hflag⟩ h hne
  cases stepsTo_of_exec h
  case initialises hi _ =>
    obtain rfl | rfl := initialises_iff.mp hi
    · cases h
      exact absurd rfl hne
    · cases h
      exact .inr (.inr ⟨.inr rfl, rfl⟩)
  case seqinit => exact .inr (.inr ⟨.inl rfl, rfl⟩)
  case starts hrun =>
    have hidle : s.seqState = .idle := by
      by_contra hphase
      exact absurd (hflag.mpr hphase) (Bool.eq_false_iff.mp hrun)
    exact .inl ⟨rfl, hidle, by rw [hidle]; rfl⟩
  case polls hpoll => exact .inr (.inl ⟨rfl, hpoll.seqState hne⟩)
  all_goals exact absurd (by simp) hne

end Sys2Proof.Machine
end

section
/-! PROOFS. The five invariants of 10_state.md R40 to R44: they hold at reset, every step keeps them, and what follows
from them. -/

namespace Sys2Proof.Machine

open Sys2Proof Sys2Proof.Safety

/-! ### The shared operations keep the invariants -/

/-- At reset nothing moves and every register is 0. -/
theorem inv_reset : Inv State.reset where
  sequencer := ⟨nofun, by decide⟩
  mirror    := ⟨rfl, rfl, rfl⟩
  quiet     := ⟨fun _ => ⟨rfl, rfl, rfl, rfl⟩, nofun⟩
  counting  := ⟨nofun, nofun⟩
  ranges    := ⟨by decide, .inl rfl, rfl⟩

/-- `Stop()` leaves a quiet driver, whatever the move was. -/
theorem inv_stop {s : State} (hseq : SequencerConsistent s) (hranges : RangesHeld s) : Inv (stop s) where
  sequencer := hseq
  mirror    := ⟨rfl, rfl, rfl⟩
  quiet     := ⟨fun _ => ⟨rfl, rfl, rfl, rfl⟩, nofun⟩
  counting  := ⟨nofun, nofun⟩
  ranges    := hranges

section
variable {s : State} (h : Inv s)
include h

/-- A programmed frequency has a period and a duty in range. -/
theorem inv_program {f : U16} (h1 : 1 ≤ f.toNat) (h2 : f.toNat ≤ 1000) : Inv (program f s) where
  sequencer := h.sequencer
  mirror    := h.mirror
  quiet     := h.quiet
  counting  := h.counting
  ranges    := by
    obtain ⟨hlo, hhi⟩ := periodOf_range s.params.roundTies f h1 h2
    refine ⟨h.ranges.1, .inr ⟨hlo, hhi⟩, ?_⟩
    rw [program_period, program_duty, if_neg (by omega), dutyOf_toNat]

/-- `SetFrequency` programs a clamped frequency or stops. -/
theorem inv_setFrequency (hz : U16) : Inv (setFrequency hz s) := by
  by_cases hz0 : hz = 0
  · rw [hz0, setFrequency_zero]
    exact inv_stop h.sequencer h.ranges
  · obtain ⟨h1, h2⟩ := clampFreq_range hz0
    rw [setFrequency_nonzero hz0]
    exact inv_program h h1 h2

/-- A started bounded move is below its target, with its interrupt enabled and its own output driven. -/
theorem inv_move {d : Direction} {n : U16} (hn : n ≠ 0) (hd : asksMotion d = true) :
    Inv (moveStart d n (program s.params.originFreq.hz (moveCounts n s))) where
  sequencer := h.sequencer
  mirror    := ⟨rfl, rfl, rfl⟩
  quiet     := ⟨nofun, fun _ => by obtain rfl | rfl := asksMotion_cases hd <;> simp⟩
  counting  := by
    have hpos : 0 < n.toNat := by bv_omega
    exact ⟨fun _ => ⟨rfl, rfl, hpos, hpos⟩, fun _ _ => rfl⟩
  ranges    := (inv_program h s.params.originFreq.pos s.params.originFreq.le).ranges

/-- A started continuous move counts nothing and drives its own output. -/
theorem inv_continue {d : Direction} (hd : asksMotion d = true) : Inv (continueStart d s) where
  sequencer := h.sequencer
  mirror    := ⟨rfl, rfl, rfl⟩
  quiet     := ⟨nofun, fun _ => by obtain rfl | rfl := asksMotion_cases hd <;> simp⟩
  counting  := ⟨nofun, fun _ hcount => nomatch hcount⟩
  ranges    := h.ranges

/-- The pulse count may be rewritten to any number below the target of a move in progress. -/
theorem inv_currentPulses {n : U16} (hn : s.tickIrqEn = true → n.toNat < s.targetPulses.toNat) :
    Inv { s with currentPulses := n } where
  sequencer := h.sequencer
  mirror    := h.mirror
  quiet     := h.quiet
  counting  := by
    obtain ⟨hirq, hmoving⟩ := h.counting
    refine ⟨fun hen => ?_, hmoving⟩
    obtain ⟨hmove, hcount, hpos, -⟩ := hirq hen
    exact ⟨hmove, hcount, hpos, hn hen⟩
  ranges    := h.ranges

/-- A phase other than the stored one, with the flag that agrees with it. -/
theorem inv_phase {p : Phase} {r : Bool} (x : U32) (hp : p ≠ .unrecognized) (hr : r = true ↔ p ≠ .idle) :
    Inv { s with seqState := p, seqRunning := r, phaseStart := x } where
  sequencer := ⟨hp, hr⟩
  mirror    := h.mirror
  quiet     := h.quiet
  counting  := h.counting
  ranges    := h.ranges

/-- A running sequence enters one of its phases. -/
theorem inv_enterPhase {p : Phase} (hrun : s.seqRunning = true) (hp : p ≠ .unrecognized) (hp' : p ≠ .idle) :
    Inv (enterPhase p s) := by
  have hphase := inv_phase h (r := s.seqRunning) s.nowMs hp (iff_of_true hrun hp')
  exact hphase

/-! ### Every operation keeps the invariants -/

/-- A phase body of a running sequence. -/
theorem inv_pollsTo {t : State} (hrun : s.seqRunning = true) (hpoll : PollsTo s t) : Inv t := by
  cases hpoll
  case startWaits | monitorStays | completeWaits => exact h
  case setupSwitches =>
    have hswitches : Inv (propagate { s with switchCurrent := true, switchHoldoff := false, switchDivision := true }) :=
      ⟨h.sequencer, h.mirror, h.quiet, h.counting, h.ranges⟩
    exact inv_enterPhase hswitches hrun nofun nofun
  case startMoves =>
    exact inv_enterPhase (inv_continue (inv_setFrequency h s.freq) rfl) (by simpa using hrun) nofun nofun
  case monitorPasses => exact inv_enterPhase h hrun nofun nofun
  case adjustSwitches =>
    have hswitches : Inv (propagate { s with switchCurrent := false, switchDivision := false }) :=
      ⟨h.sequencer, h.mirror, h.quiet, h.counting, h.ranges⟩
    exact inv_enterPhase hswitches hrun nofun nofun
  case finalStops => exact inv_stop h.sequencer h.ranges
  case finalMoves =>
    have hmove := inv_move (inv_stop h.sequencer h.ranges) (n := Config.finalSteps) (by decide) (d := .clockwise) rfl
    exact inv_phase hmove (r := s.seqRunning) s.phaseStart nofun (iff_of_true hrun nofun)
  case completeEnds => exact inv_phase h s.phaseStart nofun (by simp)
  case outside hp =>
    obtain ⟨hknown, hflag⟩ := h.sequencer
    exact absurd (hp.resolve_right hknown) (hflag.mp hrun)

/-- The invariants are inductive over the operations. -/
theorem inv_exec {i : Instr} {t : State} (hexec : exec i s = .next t) : Inv t := by
  cases stepsTo_of_exec hexec
  case initialises hi _ =>
    obtain rfl | rfl := initialises_iff.mp hi
    · cases hexec
      exact ⟨h.sequencer, ⟨rfl, rfl, rfl⟩, ⟨fun _ => ⟨rfl, rfl, rfl, rfl⟩, nofun⟩, ⟨nofun, nofun⟩,
        h.ranges.1, .inl rfl, rfl⟩
    · cases hexec
      exact ⟨inv_reset.sequencer, inv_reset.mirror, inv_reset.quiet, inv_reset.counting, inv_reset.ranges⟩
  case setfZero | moveStops | cmoveStops | stops | drvprocStops | tickStops => exact inv_stop h.sequencer h.ranges
  case setf hz hne =>
    obtain ⟨h1, h2⟩ := clampFreq_range hne
    exact inv_program h h1 h2
  case moveStarts hn hd => exact inv_move h hn hd
  case cmoveStarts hd => exact inv_continue h hd
  case rstcnt =>
    refine inv_currentPulses h fun hen => ?_
    obtain ⟨-, -, hpos, -⟩ := h.counting.1 hen
    exact hpos
  case tickCounts hbelow =>
    have hclear : Inv (clearTick s) := ⟨h.sequencer, h.mirror, h.quiet, h.counting, h.ranges⟩
    exact inv_currentPulses hclear fun _ => hbelow
  case wrfreq hz =>
    obtain ⟨-, hperiod, hduty⟩ := h.ranges
    refine ⟨h.sequencer, h.mirror, h.quiet, h.counting, ?_, hperiod, hduty⟩
    rw [clampFreq_toNat]
    exact Nat.min_le_right ..
  case seqinit => exact inv_phase h 0 nofun (by simp)
  case starts => exact inv_phase h s.nowMs nofun (by simp)
  case polls hrun hpoll => exact inv_pollsTo h hrun hpoll
  case drvprocIdle | startAgain | pollIdle => exact h
  -- registers that no invariant speaks of
  all_goals exact ⟨h.sequencer, h.mirror, h.quiet, h.counting, h.ranges⟩

end

/-- Settles O54: every register is 0. -/
theorem resetStateConsistent : Obligations.ResetStateConsistent := inv_reset

/-- A step that answers a next state waits, unchanged, or executes an operation on the state with its stimulus taken
off. -/
theorem step_next {s t : State} (h : step s = .next t) :
    t = s ∨ ∃ i rest, exec i (takeStimulus rest s) = .next t := by
  cases hs : s.script with
  | nil =>
    rw [waitingBlockUnchanged s hs] at h
    exact .inl (Host.Outcome.next.inj h).symm
  | cons x rest =>
    cases hx : readStimulus x with
    | error r => nomatch (step_refused_of_readStimulus hs hx).symm.trans h
    | ok i => exact .inr ⟨i, rest, (step_of_readStimulus hs hx).symm.trans h⟩

/-- Settles O55: a step executes an operation on a state that differs in the script and the read output only, and every
operation keeps the invariants. -/
theorem stepKeepsConsistency : Obligations.StepKeepsConsistency := by
  intro s t h hstep
  obtain rfl | ⟨i, rest, hexec⟩ := step_next hstep
  · exact h
  · have htaken : Inv (takeStimulus rest s) := ⟨h.sequencer, h.mirror, h.quiet, h.counting, h.ranges⟩
    exact inv_exec htaken hexec

/-! ### What follows from the invariants (10_state.md R40, R43, 41_stepper_driver.md R130) -/

/-- SEQ_STATUS has `is_running` in bit 9 and the running flag in bit 8. -/
theorem seqStatus_running_bits (s : State) :
    (seqStatus s).getLsbD 9 = isRunning s ∧ (seqStatus s).getLsbD 8 = s.seqRunning := by
  unfold seqStatus isRunning
  cases s.seqRunning <;> cases s.seqState <;> exact ⟨rfl, rfl⟩

/-- In a consistent state the accessor `is_running` is the running flag. -/
theorem isRunning_eq_seqRunning {s : State} (h : SequencerConsistent s) : isRunning s = s.seqRunning := by
  obtain ⟨-, hflag⟩ := h
  rw [Bool.eq_iff_iff, hflag]
  simp [isRunning]

/-- Settles O56: a counted move has its interrupt enabled and is below its target (R43), so the backstop's test fails
and the count has room for one more; R40 is the agreement of flag and phase. -/
theorem consistentStateConsequences : Obligations.ConsistentStateConsequences := by
  intro s h
  obtain ⟨hirq, hcounted⟩ := h.counting
  refine ⟨fun hmove => exec_drvproc_mirrors hmove ?_, fun t htick => ?_, fun v hv => ?_⟩
  · cases hcount : s.countingEnabled with
    | false => exact .inl rfl
    | true =>
      obtain ⟨-, -, -, hbelow⟩ := hirq (hcounted hmove hcount)
      exact .inr hbelow
  · obtain ⟨hready, hcases⟩ := execTick_next.mp htick
    obtain ⟨hen, -⟩ := Bool.and_eq_true_iff.mp hready
    obtain ⟨-, hcount, -, hbelow⟩ := hirq hen
    have hsum : (s.currentPulses + 1).toNat = s.currentPulses.toNat + 1 := by
      have htarget := s.targetPulses.isLt
      bv_omega
    obtain ⟨-, rfl⟩ | ⟨huncounted, -⟩ := hcases
    · obtain ⟨-, heq⟩ | ⟨-, heq⟩ := countPulse_cases (clearTick s) <;> rw [heq] <;> exact hsum
    · exact absurd hcount (Bool.eq_false_iff.mp huncounted)
  · have hread : ReadsAs s 0x11 (zext (seqStatus s)) := readsAs_of_regRead rfl
    obtain rfl : zext (seqStatus s) = v :=
      Option.some.inj (congrArg State.rdData (Host.Outcome.next.inj (hread.symm.trans hv)))
    obtain ⟨h9, h8⟩ := seqStatus_running_bits s
    rw [zext_getLsbD (by decide), zext_getLsbD (by decide), h9, h8, isRunning_eq_seqRunning h.sequencer]

end Sys2Proof.Machine
end

section
/-! PROOFS. A bounded move to its end (41_stepper_driver.md R136, R138): the count is the number of ticks, and the n-th
one stops the move. -/

namespace Sys2Proof.Machine

open Sys2Proof Sys2Proof.Safety

/-! ### Counting (41_stepper_driver.md R136) -/

/-- A move of `n` pulses after `k` of them: still going below `n`, or stopped by the `n`-th with one callback if a
handler is registered (`cb`); `base` callbacks had been emitted before the move. -/
structure CountsTo (n k base : Nat) (cb : Bool) (t : State) : Prop where
  target   : t.targetPulses.toNat = n
  current  : t.currentPulses.toNat = k
  le       : k ≤ n
  handler  : t.cbEn = cb
  moving   : t.isMoving = true ↔ k < n
  irq      : t.tickIrqEn = true ↔ k < n
  counting : t.countingEnabled = true
  outputs  : k = n → t.outCwEn = false ∧ t.outCcwEn = false
  emitted  : callbacks t.trace = base + if k = n ∧ cb = true then 1 else 0

theorem callbacks_append (l l' : List Event) : callbacks (l ++ l') = callbacks l + callbacks l' := List.count_append

/-- A started bounded move has counted nothing. -/
theorem countsTo_moveStart {d : Direction} {n : U16} (hn : n ≠ 0) (s : State) :
    CountsTo n.toNat 0 (callbacks s.trace) s.cbEn
      (moveStart d n (program s.params.originFreq.hz (moveCounts n s))) := by
  have hpos : 0 < n.toNat := by bv_omega
  refine ⟨rfl, rfl, hpos.le, rfl, iff_of_true rfl hpos, iff_of_true rfl hpos, rfl, fun h => ?_, ?_⟩
  · exact absurd h hpos.ne
  · rw [if_neg fun h => hpos.ne h.1]
    rfl

/-- Operations that leave the driver alone, TICK apart, cannot stop, start or initialise anything. -/
theorem leavesDriverAlone_spec {i : Instr} (h : leavesDriverAlone i = true) (ht : i ≠ .tick) :
    canStop i = false ∧ canMove i = false ∧ canContinue i = false ∧ initialises i = false ∧ i ≠ .rstcnt ∧
      (∀ en, i ≠ .setcb en) ∧ i ≠ .reset := by
  cases i <;> simp_all [leavesDriverAlone, canStop, canMove, canContinue, initialises]

/-- The registers of a move are kept by every operation that leaves the driver alone, TICK apart: by the writers of each
register, and by what can emit a callback. -/
theorem CountsTo.other {n k base : Nat} {cb : Bool} {s t : State} {i : Instr} (hs : CountsTo n k base cb s)
    (hi : leavesDriverAlone i = true) (htick : i ≠ .tick) (h : exec i s = .next t) : CountsTo n k base cb t := by
  obtain ⟨hstop, hmove, hcont, hinit, hrst, hset, hreset⟩ := leavesDriverAlone_spec hi htick
  obtain ⟨-, htarget, hcurrent, hmoving, hcounting, hhandler, -, -, -, -, hirq, houts⟩ := driverRegisterWriters i s t h
  obtain ⟨l, htrace, hle, hone⟩ := traceGrowsByAtMostOneCallback i s t hreset h
  simp only [ne_eq, hmove, Bool.false_eq_true, hcont, hinit, or_self, imp_false, Decidable.not_not, htick, hrst, hstop,
    hset, exists_const, not_or, and_false] at htarget hcurrent hmoving hcounting hhandler hirq houts hone
  have hquiet : callbacks t.trace = callbacks s.trace := by
    rw [htrace, callbacks_append]
    omega
  obtain ⟨hcw, hccw⟩ := houts
  exact ⟨htarget ▸ hs.target, hcurrent ▸ hs.current, hs.le, hhandler ▸ hs.handler, hmoving ▸ hs.moving,
    hirq ▸ hs.irq, hcounting ▸ hs.counting, hcw ▸ hccw ▸ hs.outputs, hquiet ▸ hs.emitted⟩

/-- `Stop()` of a moving driver emits the callback if a handler is registered, whatever the mode. -/
theorem stopEvents_of_moving {s : State} (h : s.isMoving = true) :
    stopEvents s = if s.cbEn then [.callback] else [] := by
  simp [stopEvents, h]

theorem callbacks_stop_of_moving {s : State} (h : s.isMoving = true) :
    callbacks (stop s).trace = callbacks s.trace + if s.cbEn then 1 else 0 := by
  rw [stop_trace, callbacks_append, stopEvents_of_moving h]
  cases s.cbEn <;> rfl

/-- A tick counts one more pulse, and the last one stops the move. -/
theorem CountsTo.tick {n k base : Nat} {cb : Bool} {s t : State} (hs : CountsTo n k base cb s)
    (h : exec .tick s = .next t) : CountsTo n (k + 1) base cb t := by
  obtain ⟨hready, hcases⟩ := execTick_next.mp h
  obtain ⟨hen, -⟩ := Bool.and_eq_true_iff.mp hready
  have hlt : k < n := hs.irq.mp hen
  have hcurrent := hs.current
  have htarget := hs.target
  have hsum : (s.currentPulses + 1).toNat = k + 1 := by
    have hmax := s.targetPulses.isLt
    bv_omega
  obtain ⟨-, rfl⟩ | ⟨huncounted, -⟩ := hcases
  · obtain ⟨hreached, heq⟩ | ⟨hbelow, heq⟩ := countPulse_cases (clearTick s) <;> rw [heq]
    · have hlast : k + 1 = n := by
        rw [BitVec.le_def] at hreached
        change s.targetPulses.toNat ≤ (s.currentPulses + 1).toNat at hreached
        omega
      refine ⟨htarget, hsum, hlt, hs.handler, iff_of_false nofun (by omega), iff_of_false nofun (by omega), hs.counting,
        fun _ => ⟨rfl, rfl⟩, ?_⟩
      rw [callbacks_stop_of_moving (s := onePulse (clearTick s)) (hs.moving.mpr hlt)]
      change callbacks s.trace + (if s.cbEn then 1 else 0) = _
      rw [hs.emitted, if_neg fun h => hlt.ne h.1, hs.handler, hlast]
      simp
    · have hmore : k + 1 < n := by
        rw [BitVec.lt_def] at hbelow
        change (s.currentPulses + 1).toNat < s.targetPulses.toNat at hbelow
        omega
      refine ⟨htarget, hsum, hlt, hs.handler, iff_of_true (hs.moving.mpr hlt) hmore, iff_of_true hen hmore, hs.counting,
        fun hlast => absurd hlast hmore.ne, ?_⟩
      rw [if_neg fun h => hmore.ne h.1]
      have hemitted := hs.emitted
      rw [if_neg fun h => hlt.ne h.1] at hemitted
      exact hemitted
  · exact absurd hs.counting (Bool.eq_false_iff.mp huncounted)

/-- After a run of operations that leave the driver alone the count is higher by the ticks among them. -/
theorem CountsTo.run {n k base : Nat} {cb : Bool} {s t : State} {is : List Instr} (hs : CountsTo n k base cb s)
    (hall : ∀ i ∈ is, leavesDriverAlone i = true) (h : execAll is s = .next t) :
    CountsTo n (k + is.count .tick) base cb t := by
  induction is generalizing k s with
  | nil =>
    cases h
    exact hs
  | cons i is ih =>
    obtain ⟨u, hexec, hrest⟩ := execAll_cons_next.mp h
    have hall' : ∀ j ∈ is, leavesDriverAlone j = true := fun j hj => hall j (List.mem_cons_of_mem _ hj)
    by_cases htick : i = .tick
    · subst htick
      have hrun := ih (hs.tick hexec) hall' hrest
      rwa [List.count_cons_self, Nat.add_comm _ 1, ← Nat.add_assoc]
    · rw [List.count_cons_of_ne htick]
      exact ih (hs.other (hall i (List.mem_cons_self ..)) htick hexec) hall' hrest

/-- Settles O30: by induction on the operations after the move, with the count of the ticks among them. -/
theorem countingLaw : Obligations.CountingLaw := by
  intro d n s hn hd
  refine ⟨_, exec_move_started hn (asksMotion_eq_true hd) s, fun is t hall hrun => ?_⟩
  have hcount := (countsTo_moveStart hn s).run hall hrun
  rw [Nat.zero_add] at hcount
  refine ⟨hcount.le, hcount.current, hcount.moving, fun hlast => ?_, hcount.emitted⟩
  obtain ⟨hcw, hccw⟩ := hcount.outputs hlast
  exact ⟨hcw, hccw, Bool.eq_false_iff.mpr fun hirq => absurd (hcount.irq.mp hirq) (by omega)⟩

/-! ### Every period followed by its tick (41_stepper_driver.md R138) -/

/-- A bounded move in direction `d` with `r` pulses to go, its own output the only one enabled. -/
structure Pulsing (d : Direction) (r : Nat) (s : State) : Prop where
  motion   : asksMotion d = true
  outCw    : s.outCwEn = decide (d = .clockwise)
  outCcw   : s.outCcwEn = decide (d = .counterClockwise)
  irq      : s.tickIrqEn = true
  counting : s.countingEnabled = true
  moving   : s.isMoving = true
  room     : s.currentPulses.toNat + r = s.targetPulses.toNat

/-- A state after one more elapsed period and its tick, the move going on. -/
def pulsed (s : State) : State := onePulse (clearTick (periodElapsed s))

section
variable {d : Direction} {r : Nat} {s : State}

/-- The period of a bounded move emits the pulse of its own output. -/
theorem Pulsing.pulseEvents (h : Pulsing d r s) : pulseEvents s = [.pulse (outputOf d)] := by
  unfold Machine.pulseEvents
  rw [h.outCw, h.outCcw]
  obtain rfl | rfl := asksMotion_cases h.motion <;> rfl

theorem Pulsing.trace_pulsed (h : Pulsing d r s) : (pulsed s).trace = s.trace ++ [.pulse (outputOf d)] := by
  rw [← h.pulseEvents]
  rfl

/-- One output is enabled, so the period elapses; its tick is then ready and counts. -/
theorem Pulsing.exec_pulse (h : Pulsing d r s) :
    execAll ScriptLine.pulse.expand s = .next (countPulse (clearTick (periodElapsed s))) := by
  have hen : outputEnabled s = true := by
    rw [outputEnabled, h.outCw, h.outCcw]
    obtain rfl | rfl := asksMotion_cases h.motion <;> rfl
  have hready : tickReady (periodElapsed s) = true := Bool.and_eq_true_iff.mpr ⟨h.irq, rfl⟩
  exact (execAll_cons (exec_tmrupd_enabled hen)).trans (execAll_cons (exec_tick_counted hready h.counting))

/-- The count after one more pulse, which cannot wrap below the target. -/
theorem Pulsing.current_pulsed (h : Pulsing d (r + 1) s) :
    (pulsed s).currentPulses.toNat = s.currentPulses.toNat + 1 := by
  change (s.currentPulses + 1).toNat = _
  have hroom := h.room
  have hmax := s.targetPulses.isLt
  bv_omega

/-- A pulse that is not the last leaves the move going on. -/
theorem Pulsing.more (h : Pulsing d (r + 2) s) :
    execAll ScriptLine.pulse.expand s = .next (pulsed s) ∧ Pulsing d (r + 1) (pulsed s) := by
  have hcurrent := h.current_pulsed
  have hroom := h.room
  refine ⟨?_, h.motion, h.outCw, h.outCcw, h.irq, h.counting, h.moving, ?_⟩
  · rw [h.exec_pulse, countPulse_of_lt]
    · rfl
    · rw [BitVec.lt_def]
      change (pulsed s).currentPulses.toNat < s.targetPulses.toNat
      omega
  · rw [hcurrent]
    change _ = s.targetPulses.toNat
    omega

/-- The last pulse stops the move. -/
theorem Pulsing.last (h : Pulsing d 1 s) :
    execAll ScriptLine.pulse.expand s = .next (stop (pulsed s)) ∧ (pulsed s).currentPulses = s.targetPulses := by
  have hcurrent : (pulsed s).currentPulses = s.targetPulses :=
    BitVec.eq_of_toNat_eq (h.current_pulsed.trans h.room)
  refine ⟨?_, hcurrent⟩
  rw [h.exec_pulse, countPulse_of_ge]
  · rfl
  · exact hcurrent ▸ BitVec.le_refl _

end

/-- A move with `r + 1` pulses to go ends after `r + 1` periods, each followed by its tick. -/
theorem Pulsing.run {d : Direction} {r : Nat} {s : State} (h : Pulsing d (r + 1) s) :
    ∃ t, execAll (ScriptLine.pulses (r + 1)).expand s = .next (stop t) ∧ t.currentPulses = s.targetPulses ∧
      (stop t).trace = s.trace ++ List.replicate (r + 1) (.pulse (outputOf d)) ++
        (if s.cbEn then [.callback] else []) := by
  induction r generalizing s with
  | zero =>
    obtain ⟨hrun, hcurrent⟩ := h.last
    refine ⟨pulsed s, hrun, hcurrent, ?_⟩
    rw [stop_trace, h.trace_pulsed, stopEvents_of_moving (s := pulsed s) h.moving]
    rfl
  | succ r ih =>
    obtain ⟨hpulse, hmore⟩ := h.more
    obtain ⟨t, hrun, hcurrent, htrace⟩ := ih hmore
    have hexpand : (ScriptLine.pulses (r + 2)).expand =
        ScriptLine.pulse.expand ++ (ScriptLine.pulses (r + 1)).expand := rfl
    refine ⟨t, ?_, hcurrent, ?_⟩
    · rw [hexpand, execAll_append hpulse, hrun]
    · rw [htrace, h.trace_pulsed, List.replicate_succ (n := r + 1), List.append_assoc s.trace]
      rfl

/-- Settles O31: every period with its tick is one pulse of the move, the last stops it, and a stopped driver has no
output enabled for the next period. -/
theorem pulsesCompleteAMove : Obligations.PulsesCompleteAMove := by
  intro d n s hn hd
  have hmotion := asksMotion_eq_true hd
  obtain ⟨r, hr⟩ : ∃ r, n.toNat = r + 1 := Nat.exists_eq_add_one.mpr (by bv_omega)
  have hmove : Pulsing d (r + 1) (moveStart d n (program s.params.originFreq.hz (moveCounts n s))) :=
    ⟨hmotion, rfl, rfl, rfl, rfl, rfl, (Nat.zero_add _).trans hr.symm⟩
  obtain ⟨t, hrun, hcurrent, htrace⟩ := hmove.run
  obtain ⟨hoff, -⟩ := tickSourceRefusedUnlessReady (stop t)
  obtain ⟨hrefused, -, -⟩ := hoff rfl rfl
  refine ⟨_, stop t, exec_move_started hn hmotion s, hr ▸ hrun, hcurrent, rfl, hr ▸ htrace, ?_⟩
  simp only [ScriptLine.expand, execAll, hrefused]

end Sys2Proof.Machine
end
